-- ==== Sys2Proof/Word.lean ====
section
/-! DEFINITION. The word types of the block (spec/00_scope.md R9, R12): bytes are 8 bits, the length field,
the pixel indices, the geometry registers and the register data are 16 bits.
Every quantity of the block is unsigned (R12, R20). -/

namespace Sys2Proof

/-- `u8` of R12: a byte of the link, a flags byte, a command code, an error code. -/
abbrev Byte := BitVec 8

/-- `u16` of R12: a length, a pixel index, a register word. -/
abbrev Half := BitVec 16

end Sys2Proof
end

