-- ==== Sys2Proof/Config.lean ====
section
/-! DEFINITION. The fixed constants of R8, the defaults of the implementation parameters of R9, the code
values of spec/42_command_codes.md (R163 to R184), and the values the spec leaves free. Each constant is
named once, so that a corrected literal is substituted in one place (R7, spec/93 I12). -/

namespace Sys2Proof.Config

/-! ## Fixed constants (R8) -/

/-- `START_BYTE` (R8, R91). -/
def startByte : Byte := 0xAA
/-- `RESPONSE_BIT`, bit 2 of the flags byte (R8, R13, R94). -/
def responseBit : Byte := 0x04
/-- `MAX_PAYLOAD_LIMIT` (R8): no `RXBUF_CAP` exceeds it (R9). -/
def maxPayloadLimit : Nat := 1024
/-- `T_INTERBYTE` in milliseconds (R8). The model counts ticks, not time (spec/93 I8). -/
def interbyteMilliseconds : Nat := 10
/-- `MAX_STRIPS` (R8): strip ids are 0..15. -/
def maxStrips : Nat := 16
/-- `BROADCAST_STRIP` (R8). -/
def broadcastStrip : Byte := 0xFF
/-- The fold factor of flat matrix mode (R8, R191). -/
def foldFlat : Nat := 1
/-- The fold factor of folded matrix mode (R8, R191). -/
def foldSerpentine : Nat := 2
/-- The largest number of pixels a geometry may have: every physical index fits in 16 bits (R192). -/
def maxPixels : Nat := 65535

/-! ## Implementation parameters (R9): the defaults. A state carries the values in force. -/

/-- The default of `RXBUF_CAP` (R9). -/
def rxbufCapDefault : Nat := 1024
/-- The default of `TIMEOUT_TICKS` (R9). -/
def timeoutTicksDefault : Nat := 10

/-! ## Free values: opaque, nothing in Lean evaluates them -/

/-- What byte `a` of `RXBUF` holds after power-up, before any packet has written it: an arbitrary value,
fixed until written (R30, spec/93 I1). -/
opaque rxbufPowerUp : Nat → Byte

/-- `LTFM_BASE`, the platform address of the register space: OPEN, and nothing in the block depends on it
(R79, spec/92 D24, spec/93 I17). -/
opaque ltfmBase : Nat

/-! ## Flags byte bits (R94) -/

/-- Flags bit 0 (R94). -/
def flagError : Byte := 0x01
/-- Flags bit 1 (R94). -/
def flagAckReq : Byte := 0x02
/-- Flags bit 2 (R94): the response bit. -/
def flagResponse : Byte := responseBit
/-- Flags bit 3 (R94). -/
def flagContinued : Byte := 0x08
/-- Flags bit 4 (R94). -/
def flagCompressed : Byte := 0x10

/-! ## Error codes (R183) -/

/-- `OK` (R183). -/
def errOk : Byte := 0x00
/-- `CHECKSUM` (R183): the block's checksum drop (R264). -/
def errChecksum : Byte := 0x01
/-- `INVALID_CMD` (R183); the block never uses it. -/
def errInvalidCmd : Byte := 0x02
/-- `INVALID_LENGTH` (R183); the block never uses it. -/
def errInvalidLength : Byte := 0x03
/-- `INVALID_PARAM` (R183): the mapper's range error (R264). -/
def errInvalidParam : Byte := 0x04
/-- `BUFFER_OVERFLOW` (R183): the oversize drop and the transmit refusal (R264). -/
def errBufferOverflow : Byte := 0x05
/-- `PIXEL_OVERFLOW` (R183); the block never uses it. -/
def errPixelOverflow : Byte := 0x06
/-- `BUSY` (R183); the block never uses it. -/
def errBusy : Byte := 0x07
/-- `NOT_SUPPORTED` (R183); the block never uses it. -/
def errNotSupported : Byte := 0x08
/-- `TIMEOUT` (R183): the inter-byte timeout drop (R264). -/
def errTimeout : Byte := 0x09
/-- `HARDWARE` (R183); the block never uses it. -/
def errHardware : Byte := 0x0A
/-- `CONFIG` (R183): the mapper's configuration error (R264). -/
def errConfig : Byte := 0x0B

/-! ## Colour format codes (R184); the block does not use them -/

/-- `RGB` (R184). -/
def colourRgb : Byte := 0x03
/-- `RGBW` (R184). -/
def colourRgbw : Byte := 0x04
/-- `GRB` (R184). -/
def colourGrb : Byte := 0x13
/-- `GRBW` (R184). -/
def colourGrbw : Byte := 0x14

/-! ## Wire command codes (R163 to R181) -/

/-- `NOP` (R163). -/
def cmdNop : Byte := 0x00
/-- `RESET` (R164). -/
def cmdReset : Byte := 0x01
/-- `ACK` (R165). -/
def cmdAck : Byte := 0x02
/-- `NAK` (R166). -/
def cmdNak : Byte := 0x03
/-- `HELLO` (R167). -/
def cmdHello : Byte := 0x04
/-- `SHOW` (R168). -/
def cmdShow : Byte := 0x05
/-- `GET_INFO` (R169). -/
def cmdGetInfo : Byte := 0x10
/-- `GET_PIXELS` (R170). -/
def cmdGetPixels : Byte := 0x11
/-- `GET_CONTROL` (R171). -/
def cmdGetControl : Byte := 0x12
/-- `INFO_RESPONSE` (R172). -/
def cmdInfoResponse : Byte := 0x20
/-- `PIXEL_RESPONSE` (R173). -/
def cmdPixelResponse : Byte := 0x21
/-- `CONTROL_RESPONSE` (R174). -/
def cmdControlResponse : Byte := 0x22
/-- `PIXEL_SET_ALL` (R175). -/
def cmdPixelSetAll : Byte := 0x30
/-- `PIXEL_SET_RANGE` (R176). -/
def cmdPixelSetRange : Byte := 0x31
/-- `PIXEL_FRAME` (R177). -/
def cmdPixelFrame : Byte := 0x33
/-- `SET_CONTROL` (R178). -/
def cmdSetControl : Byte := 0x40
/-- `STATUS_UPDATE` (R179). -/
def cmdStatusUpdate : Byte := 0x50
/-- `FRAME_ACK` (R180). -/
def cmdFrameAck : Byte := 0x51
/-- `INPUT_EVENT` (R181). -/
def cmdInputEvent : Byte := 0x53

end Sys2Proof.Config
end

