-- ==== Sys2Proof/Syntax.lean ====
section
/-! DEFINITION. The operations of the block, one constructor per row of spec/opcode_table.json (R2: an "instruction"
is one operation of the block, a transfer on one of its ports). The operands are the ones the row's `fields` name
beside the selector. -/

namespace Sys2Proof

/-- One operation of the block (R2), or one wire command code (R105). -/
inductive Instr where
  -- Receive framer, an accepted byte (format `rx_decode`, R99): the operand is `rx_data`.
  /-- `RX_WS_START` (R115). -/
  | rxWsStart
  /-- `RX_WS_SKIP` (R116). -/
  | rxWsSkip (b : Byte)
  /-- `RX_FLAGS` (R117). -/
  | rxFlags (b : Byte)
  /-- `RX_LEN_LO` (R118). -/
  | rxLenLo (b : Byte)
  /-- `RX_LEN_HI_OVERSIZE` (R120). -/
  | rxLenHiOversize (b : Byte)
  /-- `RX_LEN_HI` (R119). -/
  | rxLenHi (b : Byte)
  /-- `RX_CMD_EMPTY` (R121). -/
  | rxCmdEmpty (b : Byte)
  /-- `RX_CMD` (R122). -/
  | rxCmd (b : Byte)
  /-- `RX_PAYLOAD_LAST` (R124). -/
  | rxPayloadLast (b : Byte)
  /-- `RX_PAYLOAD` (R123). -/
  | rxPayload (b : Byte)
  /-- `RX_CHK_OK` (R125). -/
  | rxChkOk (b : Byte)
  /-- `RX_CHK_BAD` (R126). -/
  | rxChkBad (b : Byte)
  /-- `RX_STATE7` (R127). -/
  | rxState7 (b : Byte)
  -- Receive events (format `rx_event`, R100).
  /-- `RX_TICK` (R113). -/
  | rxTick
  /-- `RX_TIMEOUT` (R114). -/
  | rxTimeout
  /-- `PKT_ACK` (R129). -/
  | pktAck
  /-- `PL_RD` (R130). -/
  | plRd (a : BitVec 10)
  -- Transmit encoder (format `tx_op`, R101).
  /-- `TX_REQ` (R142). -/
  | txReq (f c : Byte) (n : Half)
  /-- `TX_REQ_REFUSE` (R143). -/
  | txReqRefuse (n : Half)
  /-- `TX_EMIT_START` (R146). -/
  | txEmitStart
  /-- `TX_EMIT_FLAGS` (R147). -/
  | txEmitFlags
  /-- `TX_EMIT_LEN_LO` (R148). -/
  | txEmitLenLo
  /-- `TX_EMIT_LEN_HI` (R149). -/
  | txEmitLenHi
  /-- `TX_EMIT_CMD` (R150). -/
  | txEmitCmd
  /-- `TX_EMIT_PAYLOAD` (R151). -/
  | txEmitPayload (p : Byte)
  /-- `TX_EMIT_CHK` (R152). -/
  | txEmitChk
  -- Pixel address mapper (format `map_req`, R102, R104).
  /-- `MAP_ACCEPT` (R194). -/
  | mapAccept (strip : Byte) (l : Half)
  /-- `MAP_CFG_ERR` (R195). -/
  | mapCfgErr (strip : Byte) (l : Half)
  /-- `MAP_STRIP_BCAST` (R197). -/
  | mapStripBcast (l : Half)
  /-- `MAP_STRIP` (R196). -/
  | mapStrip (strip : Byte) (l : Half)
  /-- `MAP_FLAT` (R199). -/
  | mapFlat (strip : Byte) (l : Half)
  /-- `MAP_FOLD` (R200). -/
  | mapFold (strip : Byte) (l : Half)
  /-- `MAP_RSVD` (R201). -/
  | mapRsvd (strip : Byte) (l : Half)
  /-- `MAP_BEAT` (R202). -/
  | mapBeat
  /-- `MAP_BCAST_NEXT` (R198). -/
  | mapBcastNext
  -- Control and status registers (format `csr`, R103): the operand of a write is `csr_wdata`.
  /-- `CSR_RD_CTRL` (R222). -/
  | csrRdCtrl
  /-- `CSR_WR_CTRL` (R223). -/
  | csrWrCtrl (d : Half)
  /-- `CSR_RD_MAX_PAYLOAD` (R224). -/
  | csrRdMaxPayload
  /-- `CSR_WR_MAX_PAYLOAD` (R225). -/
  | csrWrMaxPayload (d : Half)
  /-- `CSR_RD_CHKERR_CNT` (R226). -/
  | csrRdChkerrCnt
  /-- `CSR_WR_CHKERR_CNT` (R227). -/
  | csrWrChkerrCnt (d : Half)
  /-- `CSR_RD_EVENT` (R228). -/
  | csrRdEvent
  /-- `CSR_WR_EVENT` (R229). -/
  | csrWrEvent (d : Half)
  /-- `CSR_RD_IRQ_EN` (R230). -/
  | csrRdIrqEn
  /-- `CSR_WR_IRQ_EN` (R231). -/
  | csrWrIrqEn (d : Half)
  /-- `CSR_RD_STATUS` (R232). -/
  | csrRdStatus
  /-- `CSR_WR_STATUS` (R233). -/
  | csrWrStatus (d : Half)
  /-- `CSR_RD_MAP_MODE` (R234). -/
  | csrRdMapMode
  /-- `CSR_WR_MAP_MODE` (R235). -/
  | csrWrMapMode (d : Half)
  /-- `CSR_RD_PHYS_WIDTH` (R236). -/
  | csrRdPhysWidth
  /-- `CSR_WR_PHYS_WIDTH` (R237). -/
  | csrWrPhysWidth (d : Half)
  /-- `CSR_RD_STRIP_COUNT` (R238). -/
  | csrRdStripCount
  /-- `CSR_WR_STRIP_COUNT` (R239). -/
  | csrWrStripCount (d : Half)
  /-- `CSR_RD_BRIGHTNESS` (R240). -/
  | csrRdBrightness
  /-- `CSR_WR_BRIGHTNESS` (R241). -/
  | csrWrBrightness (d : Half)
  /-- `CSR_RD_MATRIX_WIDTH` (R242). -/
  | csrRdMatrixWidth
  /-- `CSR_WR_MATRIX_WIDTH` (R243). -/
  | csrWrMatrixWidth (d : Half)
  /-- `CSR_RD_MATRIX_HEIGHT` (R244). -/
  | csrRdMatrixHeight
  /-- `CSR_WR_MATRIX_HEIGHT` (R245). -/
  | csrWrMatrixHeight (d : Half)
  /-- `CSR_RD_LAST_DROP` (R246). -/
  | csrRdLastDrop
  /-- `CSR_WR_LAST_DROP` (R247). -/
  | csrWrLastDrop (d : Half)
  /-- `CSR_RD_RSVD_D` (R248). -/
  | csrRdRsvdD
  /-- `CSR_WR_RSVD_D` (R249). -/
  | csrWrRsvdD (d : Half)
  /-- `CSR_RD_RSVD_E` (R248). -/
  | csrRdRsvdE
  /-- `CSR_WR_RSVD_E` (R249). -/
  | csrWrRsvdE (d : Half)
  /-- `CSR_RD_RSVD_F` (R248). -/
  | csrRdRsvdF
  /-- `CSR_WR_RSVD_F` (R249). -/
  | csrWrRsvdF (d : Half)
  /-- `CSR_IDLE` (R250). -/
  | csrIdle
  -- Brightness scaler (format `scale`, R104).
  /-- `SCALE` (R206). -/
  | scale (v : Byte)
  -- Reset (format `reset`, R104).
  /-- `RESET` (R281). -/
  | reset
  -- Wire command codes (format `wire_command`, R105): data a packet carries in its command byte.
  /-- `CMD_NOP` (R163). -/
  | cmdNop
  /-- `CMD_RESET` (R164). -/
  | cmdReset
  /-- `CMD_ACK` (R165). -/
  | cmdAck
  /-- `CMD_NAK` (R166). -/
  | cmdNak
  /-- `CMD_HELLO` (R167). -/
  | cmdHello
  /-- `CMD_SHOW` (R168). -/
  | cmdShow
  /-- `CMD_GET_INFO` (R169). -/
  | cmdGetInfo
  /-- `CMD_GET_PIXELS` (R170). -/
  | cmdGetPixels
  /-- `CMD_GET_CONTROL` (R171). -/
  | cmdGetControl
  /-- `CMD_INFO_RESPONSE` (R172). -/
  | cmdInfoResponse
  /-- `CMD_PIXEL_RESPONSE` (R173). -/
  | cmdPixelResponse
  /-- `CMD_CONTROL_RESPONSE` (R174). -/
  | cmdControlResponse
  /-- `CMD_PIXEL_SET_ALL` (R175). -/
  | cmdPixelSetAll
  /-- `CMD_PIXEL_SET_RANGE` (R176). -/
  | cmdPixelSetRange
  /-- `CMD_PIXEL_FRAME` (R177). -/
  | cmdPixelFrame
  /-- `CMD_SET_CONTROL` (R178). -/
  | cmdSetControl
  /-- `CMD_STATUS_UPDATE` (R179). -/
  | cmdStatusUpdate
  /-- `CMD_FRAME_ACK` (R180). -/
  | cmdFrameAck
  /-- `CMD_INPUT_EVENT` (R181). -/
  | cmdInputEvent
  deriving DecidableEq, Repr

end Sys2Proof
end

