-- ==== Sys2Proof/WellFormed.lean ====
section
/-! DEFINITION. Which terms of `Instr` stand for an operation that some cycle can select: the conditions of
opcode_table.json that bind an operation's own operands. Conditions on the state are the decoder's (R99 to R102). -/

namespace Sys2Proof

/-- `RX_WS_SKIP` never carries the start byte: the row `RX_WS_START` is tried first (R99, R116).
`MAP_STRIP` never carries the broadcast id: `MAP_STRIP_BCAST` is tried first (R102, R196).
`TX_REQ_REFUSE` never carries the length 0: no length 0 exceeds a maximum (R143). Every other operand is free. -/
abbrev WellFormed (i : Instr) : Prop :=
  match i with
  | .rxWsSkip b => b ≠ Config.startByte
  | .mapStrip strip _ => strip ≠ Config.broadcastStrip
  | .txReqRefuse n => n ≠ 0
  | _ => True

end Sys2Proof
end

