-- ==== Sys2Proof/Decode.lean ====
section
/-! DEFINITION. The decoder and the encoder. An operation of the block is selected by a SELECTOR WORD of one of the
formats of R99 to R105, by a condition on the state for the rows that share a selector, and by the port operands the
row names. `OpWord` holds the three; `decode` reads it by the tables of spec/30_encoding.md and rejects by name what no
row matches; `encode` writes it. `decodeTableWord` reads a bare selector word (log 13). -/

namespace Sys2Proof

/-- The port signal whose selector word picks the operation (R99 to R105). `timeout`, `mapRow` and `mapNext` select the
operations that another one raises: `RX_TIMEOUT` inside `RX_TICK` (R113), the rows inside `MAP_ACCEPT` (R194),
`MAP_BCAST_NEXT` inside `MAP_BEAT` (R202). -/
inductive Port where
  /-- `fire(rx)`; word `{rx_state, rx_data}`, 11 bits (R99). -/
  | rxByte
  /-- `tick`, 1 bit (R100, R113). -/
  | tick
  /-- `tick`, 1 bit, the timeout it raises (R100, R114). -/
  | timeout
  /-- `pkt_ack`, 1 bit (R100, R129). -/
  | pktAck
  /-- `pl_rd_en`, 1 bit (R100, R130). -/
  | plRd
  /-- `fire(tx_req)`, 1 bit (R101). -/
  | txReq
  /-- `fire(tx)`; word `tx_state`, 3 bits (R101). -/
  | txByte
  /-- `fire(map_req)`; word `{MAP_MODE, map_req_strip}`, 10 bits (R102, R194). -/
  | mapReq
  /-- The row `MAP_ACCEPT` applies; the same 10-bit word (R102). -/
  | mapRow
  /-- `map_rsp_ready`, 1 bit (R104, R202). -/
  | mapRsp
  /-- `map_rsp_ready`, 1 bit, the continuation beat (R104, R198). -/
  | mapNext
  /-- `csr_valid = 1`; word `{csr_we, csr_addr}`, 5 bits (R103). -/
  | csr
  /-- `csr_valid`, 1 bit, which is 0 (R104, R250). -/
  | csrIdle
  /-- The combinational scaler, no selector bit (R104, R206). -/
  | scale
  /-- `rst`, 1 bit (R104, R281). -/
  | rst
  /-- A packet's command byte, 8 bits (R105). -/
  | command
  deriving DecidableEq, Repr

/-- How many bits the selector word of a port has (R99 to R105). -/
def Port.width : Port → Nat
  | .rxByte => 11
  | .txByte => 3
  | .mapReq => 10
  | .mapRow => 10
  | .csr => 5
  | .scale => 0
  | .command => 8
  | .tick => 1
  | .timeout => 1
  | .pktAck => 1
  | .plRd => 1
  | .txReq => 1
  | .mapRsp => 1
  | .mapNext => 1
  | .csrIdle => 1
  | .rst => 1

/-- What selects an operation: the selector word, numbered as opcode_table.json numbers it; whether the condition of
the FIRST of the two rows that share the selector holds; and the port operands, in the low bits (a transmit request:
`tx_req_flags` in bits 7:0, `tx_req_cmd` in 15:8, `tx_req_len` in 31:16). The packing is the model's (log 12). -/
structure OpWord where
  /-- The port signal. -/
  port : Port
  /-- The selector word. -/
  word : BitVec 16
  /-- The condition on the state (R99: `{b, len_lo} > MAX_PAYLOAD`, `rx_len = 0`, `rx_idx + 1 = rx_len`,
  `rx_data = rx_acc`; R101: `tx_req_len ≤ MAX_PAYLOAD`; R102: `CFG_VALID = 1`). -/
  cond : Bool
  /-- The operands. -/
  operand : BitVec 32
  deriving DecidableEq, Repr

/-- Why the decoder reads no operation. -/
inductive DecodeError where
  /-- The word has a bit above its selector's width. -/
  | selectorTooWide
  /-- The one-bit selector is 0: the signal is low, and nothing is selected (R100, R104). -/
  | signalLow
  /-- `csr_valid` is 1, so `CSR_IDLE` is not the row (R250). -/
  | csrBusy
  /-- `tx_state` is 0: `TxIdle` presents no byte (R101). -/
  | txIdle
  /-- A request of length 0 is never refused (R143). -/
  | refusalOfEmpty
  /-- The command code is reserved: it has no row (R182); as a byte of a packet the framer carries it like any other. -/
  | reservedCommand
  deriving DecidableEq, Repr

/-! ## Fields of the words -/

/-- `w[7:0]`: `rx_data` of R99, `map_req_strip` of R102, the command of R105. -/
def lowByte (w : BitVec 16) : Byte := w.setWidth 8

/-- `w[10:8]`: `rx_state` of R99. -/
def rxStateField (w : BitVec 16) : Nat := (w.extractLsb' 8 3).toNat

/-- `w[9:8]`: `MAP_MODE` of R102. -/
def mapModeField (w : BitVec 16) : Nat := (w.extractLsb' 8 2).toNat

/-- The low 16 operand bits: `map_req_index`, `csr_wdata`, the length of a refused request. -/
def operandHalf (o : BitVec 32) : Half := o.setWidth 16

/-- The low 8 operand bits: `tx_pl_data`, `scale_in`, `tx_req_flags`. -/
def operandByte (o : BitVec 32) : Byte := o.setWidth 8

/-! ## One decoder per format -/

/-- The rows of `rx_decode` (R99), the first that matches: by state, then by the condition. -/
def decodeRxByte (st : Nat) (b : Byte) (cond : Bool) : Instr :=
  match st with
  | 0 => if b = Config.startByte then .rxWsStart else .rxWsSkip b
  | 1 => .rxFlags b
  | 2 => .rxLenLo b
  | 3 => if cond then .rxLenHiOversize b else .rxLenHi b
  | 4 => if cond then .rxCmdEmpty b else .rxCmd b
  | 5 => if cond then .rxPayloadLast b else .rxPayload b
  | 6 => if cond then .rxChkOk b else .rxChkBad b
  | _ => .rxState7 b

/-- The byte-emitting rows of `tx_op` (R101), by `tx_state`. -/
def decodeTxByte (st : Nat) (p : Byte) : Except DecodeError Instr :=
  match st with
  | 0 => .error .txIdle
  | 1 => .ok .txEmitStart
  | 2 => .ok .txEmitFlags
  | 3 => .ok .txEmitLenLo
  | 4 => .ok .txEmitLenHi
  | 5 => .ok .txEmitCmd
  | 6 => .ok (.txEmitPayload p)
  | _ => .ok .txEmitChk

/-- The rows `MAP_ACCEPT` applies (R102): `CFG_VALID = 0` first, then by mode and strip id. -/
def decodeMapRow (mode : Nat) (strip : Byte) (l : Half) (cfgValid : Bool) : Instr :=
  if cfgValid then
    match mode with
    | 0 => if strip = Config.broadcastStrip then .mapStripBcast l else .mapStrip strip l
    | 1 => .mapFlat strip l
    | 2 => .mapFold strip l
    | _ => .mapRsvd strip l
  else .mapCfgErr strip l

/-- The rows of `csr` (R103): `{csr_we, csr_addr}`, a read at 0x00 to 0x0F, a write at 0x10 to 0x1F. -/
def decodeCsr (w : Nat) (d : Half) : Instr :=
  match w with
  | 0 => .csrRdCtrl
  | 1 => .csrRdMaxPayload
  | 2 => .csrRdChkerrCnt
  | 3 => .csrRdEvent
  | 4 => .csrRdIrqEn
  | 5 => .csrRdStatus
  | 6 => .csrRdMapMode
  | 7 => .csrRdPhysWidth
  | 8 => .csrRdStripCount
  | 9 => .csrRdBrightness
  | 10 => .csrRdMatrixWidth
  | 11 => .csrRdMatrixHeight
  | 12 => .csrRdLastDrop
  | 13 => .csrRdRsvdD
  | 14 => .csrRdRsvdE
  | 15 => .csrRdRsvdF
  | 16 => .csrWrCtrl d
  | 17 => .csrWrMaxPayload d
  | 18 => .csrWrChkerrCnt d
  | 19 => .csrWrEvent d
  | 20 => .csrWrIrqEn d
  | 21 => .csrWrStatus d
  | 22 => .csrWrMapMode d
  | 23 => .csrWrPhysWidth d
  | 24 => .csrWrStripCount d
  | 25 => .csrWrBrightness d
  | 26 => .csrWrMatrixWidth d
  | 27 => .csrWrMatrixHeight d
  | 28 => .csrWrLastDrop d
  | 29 => .csrWrRsvdD d
  | 30 => .csrWrRsvdE d
  | _ => .csrWrRsvdF d

/-- The rows of `wire_command` (R105, R163 to R181). -/
def decodeCommand (w : Nat) : Except DecodeError Instr :=
  match w with
  | 0x00 => .ok .cmdNop
  | 0x01 => .ok .cmdReset
  | 0x02 => .ok .cmdAck
  | 0x03 => .ok .cmdNak
  | 0x04 => .ok .cmdHello
  | 0x05 => .ok .cmdShow
  | 0x10 => .ok .cmdGetInfo
  | 0x11 => .ok .cmdGetPixels
  | 0x12 => .ok .cmdGetControl
  | 0x20 => .ok .cmdInfoResponse
  | 0x21 => .ok .cmdPixelResponse
  | 0x22 => .ok .cmdControlResponse
  | 0x30 => .ok .cmdPixelSetAll
  | 0x31 => .ok .cmdPixelSetRange
  | 0x33 => .ok .cmdPixelFrame
  | 0x40 => .ok .cmdSetControl
  | 0x50 => .ok .cmdStatusUpdate
  | 0x51 => .ok .cmdFrameAck
  | 0x53 => .ok .cmdInputEvent
  | _ => .error .reservedCommand

/-- A one-bit selector: the operation when the signal is 1 (R100, R104). -/
def decodeSignal (w : BitVec 16) (i : Instr) : Except DecodeError Instr :=
  if w = 1 then .ok i else .error .signalLow

/-- The operation a selector word of a port selects, by the tables of R99 to R105. -/
def decodePort (port : Port) (word : BitVec 16) (cond : Bool) (operand : BitVec 32) : Except DecodeError Instr :=
  match port with
  | .rxByte => .ok (decodeRxByte (rxStateField word) (lowByte word) cond)
  | .tick => decodeSignal word .rxTick
  | .timeout => decodeSignal word .rxTimeout
  | .pktAck => decodeSignal word .pktAck
  | .plRd => decodeSignal word (.plRd (operand.setWidth 10))
  | .txReq =>
    if cond then
      decodeSignal word (.txReq (operandByte operand) (operand.extractLsb' 8 8) (operand.extractLsb' 16 16))
    else if operand.extractLsb' 16 16 = 0 then .error .refusalOfEmpty
    else decodeSignal word (.txReqRefuse (operand.extractLsb' 16 16))
  | .txByte => decodeTxByte word.toNat (operandByte operand)
  | .mapReq => .ok (.mapAccept (lowByte word) (operandHalf operand))
  | .mapRow => .ok (decodeMapRow (mapModeField word) (lowByte word) (operandHalf operand) cond)
  | .mapRsp => decodeSignal word .mapBeat
  | .mapNext => decodeSignal word .mapBcastNext
  | .csr => .ok (decodeCsr word.toNat (operandHalf operand))
  | .csrIdle => if word = 0 then .ok .csrIdle else .error .csrBusy
  | .scale => .ok (.scale (operandByte operand))
  | .rst => decodeSignal word .reset
  | .command => decodeCommand word.toNat

/-- The operation a word selects; rejected by name where it has a bit above its selector's width or no row matches. -/
def decode (w : OpWord) : Except DecodeError Instr :=
  if 2 ^ w.port.width ≤ w.word.toNat then .error .selectorTooWide
  else decodePort w.port w.word w.cond w.operand

/-- Every word of a list decoded, or the first rejection. -/
def decodeAll : List OpWord → Except DecodeError (List Instr)
  | [] => .ok []
  | w :: ws =>
    match decode w with
    | .error e => .error e
    | .ok i =>
      match decodeAll ws with
      | .error e => .error e
      | .ok is => .ok (i :: is)

/-! ## The encoder -/

/-- The word of an `rx_decode` row: `{st, b}` (R99). -/
def rxWord (st : BitVec 3) (b : Byte) (cond : Bool) : OpWord :=
  { port := .rxByte, word := (st ++ b).setWidth 16, cond := cond, operand := 0 }

/-- The word of a one-bit selector (R100, R104). -/
def signalWord (p : Port) : OpWord := { port := p, word := 1, cond := false, operand := 0 }

/-- The operands of a transmit request, packed as `OpWord.operand` says. -/
def txReqOperand (f c : Byte) (n : Half) : BitVec 32 := n ++ (c ++ f)

/-- The word of a `map_req` row: `{mode, strip}` and the index (R102). -/
def mapWord (p : Port) (mode : BitVec 2) (strip : Byte) (l : Half) (cfgValid : Bool) : OpWord :=
  { port := p, word := (mode ++ strip).setWidth 16, cond := cfgValid, operand := l.setWidth 32 }

/-- The word of a byte-emitting row (R101). -/
def txWord (st : BitVec 3) (p : Byte) : OpWord :=
  { port := .txByte, word := st.setWidth 16, cond := false, operand := p.setWidth 32 }

/-- The word of a register access: `{csr_we, csr_addr}` and the write data (R103). -/
def csrWord (we : Bool) (addr : BitVec 4) (d : Half) : OpWord :=
  { port := .csr, word := (BitVec.ofBool we ++ addr).setWidth 16, cond := false, operand := d.setWidth 32 }

/-- The word of a wire command code (R105). -/
def commandWord (code : Byte) : OpWord :=
  { port := .command, word := code.setWidth 16, cond := false, operand := 0 }

/-- The word of an operation, from the tables of R99 to R105. -/
def encode (i : Instr) : OpWord :=
  match i with
  | .rxWsStart => rxWord 0 Config.startByte false
  | .rxWsSkip b => rxWord 0 b false
  | .rxFlags b => rxWord 1 b false
  | .rxLenLo b => rxWord 2 b false
  | .rxLenHiOversize b => rxWord 3 b true
  | .rxLenHi b => rxWord 3 b false
  | .rxCmdEmpty b => rxWord 4 b true
  | .rxCmd b => rxWord 4 b false
  | .rxPayloadLast b => rxWord 5 b true
  | .rxPayload b => rxWord 5 b false
  | .rxChkOk b => rxWord 6 b true
  | .rxChkBad b => rxWord 6 b false
  | .rxState7 b => rxWord 7 b false
  | .rxTick => signalWord .tick
  | .rxTimeout => signalWord .timeout
  | .pktAck => signalWord .pktAck
  | .plRd a => { signalWord .plRd with operand := a.setWidth 32 }
  | .txReq f c n => { signalWord .txReq with cond := true, operand := txReqOperand f c n }
  | .txReqRefuse n => { signalWord .txReq with operand := txReqOperand 0 0 n }
  | .txEmitStart => txWord 1 0
  | .txEmitFlags => txWord 2 0
  | .txEmitLenLo => txWord 3 0
  | .txEmitLenHi => txWord 4 0
  | .txEmitCmd => txWord 5 0
  | .txEmitPayload p => txWord 6 p
  | .txEmitChk => txWord 7 0
  | .mapAccept strip l => mapWord .mapReq 0 strip l false
  | .mapCfgErr strip l => mapWord .mapRow 0 strip l false
  | .mapStripBcast l => mapWord .mapRow 0 Config.broadcastStrip l true
  | .mapStrip strip l => mapWord .mapRow 0 strip l true
  | .mapFlat strip l => mapWord .mapRow 1 strip l true
  | .mapFold strip l => mapWord .mapRow 2 strip l true
  | .mapRsvd strip l => mapWord .mapRow 3 strip l true
  | .mapBeat => signalWord .mapRsp
  | .mapBcastNext => signalWord .mapNext
  | .csrRdCtrl => csrWord false 0 0
  | .csrWrCtrl d => csrWord true 0 d
  | .csrRdMaxPayload => csrWord false 1 0
  | .csrWrMaxPayload d => csrWord true 1 d
  | .csrRdChkerrCnt => csrWord false 2 0
  | .csrWrChkerrCnt d => csrWord true 2 d
  | .csrRdEvent => csrWord false 3 0
  | .csrWrEvent d => csrWord true 3 d
  | .csrRdIrqEn => csrWord false 4 0
  | .csrWrIrqEn d => csrWord true 4 d
  | .csrRdStatus => csrWord false 5 0
  | .csrWrStatus d => csrWord true 5 d
  | .csrRdMapMode => csrWord false 6 0
  | .csrWrMapMode d => csrWord true 6 d
  | .csrRdPhysWidth => csrWord false 7 0
  | .csrWrPhysWidth d => csrWord true 7 d
  | .csrRdStripCount => csrWord false 8 0
  | .csrWrStripCount d => csrWord true 8 d
  | .csrRdBrightness => csrWord false 9 0
  | .csrWrBrightness d => csrWord true 9 d
  | .csrRdMatrixWidth => csrWord false 10 0
  | .csrWrMatrixWidth d => csrWord true 10 d
  | .csrRdMatrixHeight => csrWord false 11 0
  | .csrWrMatrixHeight d => csrWord true 11 d
  | .csrRdLastDrop => csrWord false 12 0
  | .csrWrLastDrop d => csrWord true 12 d
  | .csrRdRsvdD => csrWord false 13 0
  | .csrWrRsvdD d => csrWord true 13 d
  | .csrRdRsvdE => csrWord false 14 0
  | .csrWrRsvdE d => csrWord true 14 d
  | .csrRdRsvdF => csrWord false 15 0
  | .csrWrRsvdF d => csrWord true 15 d
  | .csrIdle => { port := .csrIdle, word := 0, cond := false, operand := 0 }
  | .scale v => { port := .scale, word := 0, cond := false, operand := v.setWidth 32 }
  | .reset => signalWord .rst
  | .cmdNop => commandWord Config.cmdNop
  | .cmdReset => commandWord Config.cmdReset
  | .cmdAck => commandWord Config.cmdAck
  | .cmdNak => commandWord Config.cmdNak
  | .cmdHello => commandWord Config.cmdHello
  | .cmdShow => commandWord Config.cmdShow
  | .cmdGetInfo => commandWord Config.cmdGetInfo
  | .cmdGetPixels => commandWord Config.cmdGetPixels
  | .cmdGetControl => commandWord Config.cmdGetControl
  | .cmdInfoResponse => commandWord Config.cmdInfoResponse
  | .cmdPixelResponse => commandWord Config.cmdPixelResponse
  | .cmdControlResponse => commandWord Config.cmdControlResponse
  | .cmdPixelSetAll => commandWord Config.cmdPixelSetAll
  | .cmdPixelSetRange => commandWord Config.cmdPixelSetRange
  | .cmdPixelFrame => commandWord Config.cmdPixelFrame
  | .cmdSetControl => commandWord Config.cmdSetControl
  | .cmdStatusUpdate => commandWord Config.cmdStatusUpdate
  | .cmdFrameAck => commandWord Config.cmdFrameAck
  | .cmdInputEvent => commandWord Config.cmdInputEvent

/-! ## A bare selector word -/

/-- The operation a bare two-byte selector word is read as: `MAP_STRIP_BCAST` at 0x0FF (all ten of its bits are fixed),
else the `rx_decode` row, with the conditions as they stand in the reset state, where `rx_len` is 0, `rx_idx` is 0,
`rx_acc` is 0 and `MAX_PAYLOAD` is 1024 (log 13). -/
def decodeTwoBytes (w : BitVec 16) : Except DecodeError Instr :=
  if w = 0x0FF then decode { port := .mapRow, word := w, cond := true, operand := 0 }
  else
    decode
      { port := .rxByte
        word := w
        cond :=
          match rxStateField w with
          | 3 => decide (Config.rxbufCapDefault < (lowByte w).toNat * 256)
          | 4 => true
          | 6 => lowByte w = 0
          | _ => false
        operand := 0 }

/-- The operation a bare one-byte selector word is read as: a register access where the word has five bits, else the
wire command code (log 13). -/
def decodeOneByte (w : BitVec 16) : Except DecodeError Instr :=
  if w.toNat < 32 then decode { port := .csr, word := w, cond := false, operand := 0 }
  else decode { port := .command, word := w, cond := false, operand := 0 }

/-- What the decoder reads from a selector word alone, `nbits` wide in whole bytes, bit 0 least significant. The formats
of R99 to R105 share their words (0x1 is twelve rows), so a word alone names one row only: log 13 says which. -/
def decodeTableWord (nbits w : Nat) : Option Instr :=
  if 2 ^ nbits ≤ w then none
  else
    let r :=
      if nbits ≤ 8 then decodeOneByte (BitVec.ofNat 16 w)
      else if nbits ≤ 16 then decodeTwoBytes (BitVec.ofNat 16 w)
      else .error .selectorTooWide
    match r with
    | .ok i => some i
    | .error _ => none

end Sys2Proof
end

