-- ==== Sys2Proof/Machine/State.lean ====
section
/-! DEFINITION. The state of the block: every element of R23, by unit, each under the rule that defines it; the
model's own fields (the implementation parameters, the port inputs to come, the port outputs of the last cycle, the
offers not yet taken); the reasons a step stops; and the state after reset (R65). -/

namespace Sys2Proof.Machine

/-! ## Encoded sequencing state -/

/-- `rx_state`, the source's ParserState, in the order of its codes 0 to 7 (R24). -/
inductive RxState where
  | waitStart
  | readFlags
  | readLengthLow
  | readLengthHigh
  | readCommand
  | readPayload
  | readChecksum
  /-- Code 7: no rule enters it; every rule treats it as `waitStart` (R127). -/
  | unused7
  deriving DecidableEq, Repr

/-- `tx_state`, in the order of its codes 0 to 7 (R34). -/
inductive TxState where
  | idle
  | start
  | flags
  | lenLo
  | lenHi
  | cmd
  | payload
  | chk
  deriving DecidableEq, Repr

/-- `MAP_MODE.MODE`, in the order of its codes 0 to 3 (R47). -/
inductive MapMode where
  | strip
  | flat
  | folded
  /-- Code 3: stored, and makes `CFG_VALID` 0 (R47, R192). -/
  | reserved
  deriving DecidableEq, Repr

/-! ## The units (R23) -/

/-- The implementation parameters of R9: fixed for a machine, an argument of the model (R66). -/
structure Params where
  /-- `RXBUF_CAP`, 1..1024 (R9). -/
  rxbufCap : Nat
  /-- `TIMEOUT_TICKS`, at least 1 (R9). -/
  timeoutTicks : Nat
  deriving DecidableEq, Repr

/-- The receive framer's state (R24 to R33). -/
structure RxUnit where
  /-- `rx_state` (R24). -/
  state : RxState
  /-- `rx_acc`, the running XOR (R25). -/
  acc : Byte
  /-- `rx_flags` (R26). -/
  flags : Byte
  /-- `rx_len` (R26). -/
  len : Half
  /-- `rx_cmd` (R26). -/
  cmd : Byte
  /-- `rx_chk` (R26). -/
  chk : Byte
  /-- `rx_idx` (R27). -/
  idx : BitVec 11
  /-- `idle_cnt`: ticks since the last accepted byte (R28). Its width follows `TIMEOUT_TICKS`. -/
  idle : Nat
  /-- `pkt_pending` (R29). -/
  pending : Bool
  /-- `RXBUF` (R30): the bytes some packet has written, addresses strictly rising. -/
  buf : List Host.Cell
  /-- `pl_rd_q` (R31). -/
  plRdQ : Byte
  /-- `CHKERR_CNT` (R32). -/
  chkErr : Half
  /-- `LAST_DROP` (R33). -/
  lastDrop : Byte
  deriving DecidableEq, Repr

/-- The transmit encoder's state (R34 to R37). -/
structure TxUnit where
  /-- `tx_state` (R34). -/
  state : TxState
  /-- `tx_flags`, the response bit already applied (R35). -/
  flags : Byte
  /-- `tx_len` (R35). -/
  len : Half
  /-- `tx_cmd` (R35). -/
  cmd : Byte
  /-- `tx_cnt` (R36). -/
  cnt : BitVec 11
  /-- `tx_acc` (R37). -/
  acc : Byte
  deriving DecidableEq, Repr

/-- The mapper's state (R38, R39). -/
structure MapUnit where
  /-- `m_w` (R38). -/
  w : Half
  /-- `m_n` (R38). -/
  n : BitVec 5
  /-- `rsp_valid` (R39). -/
  valid : Bool
  /-- `rsp_addr` (R39). -/
  addr : Half
  /-- `rsp_strip` (R39). -/
  strip : BitVec 4
  /-- `rsp_pos` (R39). -/
  pos : Half
  /-- `rsp_last` (R39). -/
  last : Bool
  /-- `rsp_err` (R39). -/
  err : Byte
  deriving DecidableEq, Repr

/-- The configuration registers: the bits R40 names as fields (the others read 0 and ignore writes). `EVENT` stands
beside them in `State`, because every unit writes it (R21). -/
structure CsrUnit where
  /-- `CTRL.TX_RESP` (R41). -/
  txResp : Bool
  /-- `MAX_PAYLOAD.MAX` (R42). -/
  maxPayload : BitVec 11
  /-- `IRQ_EN[5:0]` (R45). -/
  irqEn : BitVec 6
  /-- `MAP_MODE.MODE` (R47). -/
  mode : MapMode
  /-- `PHYS_WIDTH` (R48). -/
  physWidth : Half
  /-- `STRIP_COUNT[4:0]` (R49). -/
  stripCount : BitVec 5
  /-- `BRIGHTNESS[7:0]` (R50). -/
  brightness : Byte
  deriving DecidableEq, Repr

/-! ## The ports (R55 to R64) -/

/-- The port inputs of one cycle (R55 to R63). -/
structure Inputs where
  /-- `rst` (R55). -/
  rst : Bool := false
  /-- `tick` (R55). -/
  tick : Bool := false
  /-- `rx_valid` (R56). -/
  rxValid : Bool := false
  /-- `rx_data` (R56). -/
  rxData : Byte := 0
  /-- `tx_ready` (R57). -/
  txReady : Bool := false
  /-- `tx_req_valid` (R58). -/
  txReqValid : Bool := false
  /-- `tx_req_flags` (R58). -/
  txReqFlags : Byte := 0
  /-- `tx_req_cmd` (R58). -/
  txReqCmd : Byte := 0
  /-- `tx_req_len` (R58). -/
  txReqLen : Half := 0
  /-- `tx_pl_valid` (R58). -/
  txPlValid : Bool := false
  /-- `tx_pl_data` (R58). -/
  txPlData : Byte := 0
  /-- `pkt_ack` (R59). -/
  pktAck : Bool := false
  /-- `pl_rd_en` (R59). -/
  plRdEn : Bool := false
  /-- `pl_rd_addr` (R59). -/
  plRdAddr : BitVec 10 := 0
  /-- `map_req_valid` (R60). -/
  mapReqValid : Bool := false
  /-- `map_req_strip` (R60). -/
  mapReqStrip : Byte := 0
  /-- `map_req_index` (R60). -/
  mapReqIndex : Half := 0
  /-- `map_rsp_ready` (R61). -/
  mapRspReady : Bool := false
  /-- `scale_in` (R62). -/
  scaleIn : Byte := 0
  /-- `csr_valid` (R63). -/
  csrValid : Bool := false
  /-- `csr_we` (R63). -/
  csrWe : Bool := false
  /-- `csr_addr` (R63). -/
  csrAddr : BitVec 4 := 0
  /-- `csr_wdata` (R63). -/
  csrWdata : Half := 0
  deriving DecidableEq, Repr

/-- The port outputs of one cycle (R56 to R64). -/
structure Outputs where
  /-- `rx_ready` (R56). -/
  rxReady : Bool
  /-- `tx_valid` (R57, R144). -/
  txValid : Bool
  /-- `tx_data` (R57, R144). -/
  txData : Byte
  /-- `tx_req_ready` (R58). -/
  txReqReady : Bool
  /-- `tx_pl_ready` (R58). -/
  txPlReady : Bool
  /-- `pkt_valid` (R59). -/
  pktValid : Bool
  /-- `pkt_flags` (R59). -/
  pktFlags : Byte
  /-- `pkt_len` (R59). -/
  pktLen : Half
  /-- `pkt_cmd` (R59). -/
  pktCmd : Byte
  /-- `pkt_chk` (R59). -/
  pktChk : Byte
  /-- `pl_rd_data` (R59). -/
  plRdData : Byte
  /-- `map_req_ready` (R60). -/
  mapReqReady : Bool
  /-- `map_rsp_valid` (R61). -/
  mapRspValid : Bool
  /-- `map_rsp_addr` (R61). -/
  mapRspAddr : Half
  /-- `map_rsp_strip` (R61). -/
  mapRspStrip : BitVec 4
  /-- `map_rsp_pos` (R61). -/
  mapRspPos : Half
  /-- `map_rsp_last` (R61). -/
  mapRspLast : Bool
  /-- `map_rsp_err` (R61). -/
  mapRspErr : Byte
  /-- `scale_out` (R62). -/
  scaleOut : Byte
  /-- `csr_rdata` (R63). -/
  csrRdata : Half
  /-- `irq` (R64). -/
  irq : Bool
  deriving DecidableEq, Repr

/-- What each source offered in the last cycle without its being taken: the model's record of the duty of R11 (1). -/
structure Held where
  /-- The byte offered on `rx_*`. -/
  rx : Option Byte
  /-- The request offered on `tx_req_*`: flags, command, length. -/
  txReq : Option (Byte × Byte × Half)
  /-- The payload byte offered on `tx_pl_*`. -/
  txPl : Option Byte
  /-- The request offered on `map_req_*`: strip id, index. -/
  mapReq : Option (Byte × Half)
  deriving DecidableEq, Repr

/-! ## The state -/

/-- The whole state: the block's elements (R23) and the model's own fields `cfg`, `env`, `out`, `held`. -/
structure State where
  /-- The implementation parameters (R9, R66): the model's own field; no operation changes it (log 2). -/
  cfg : Params
  /-- The receive framer (R24 to R33). -/
  rx : RxUnit
  /-- The transmit encoder (R34 to R37). -/
  tx : TxUnit
  /-- The mapper (R38, R39). -/
  map : MapUnit
  /-- The configuration registers (R40 to R50). -/
  csr : CsrUnit
  /-- `EVENT[4:0]` (R44). -/
  event : BitVec 5
  /-- The port outputs of the last cycle: the model's own field (log 11). -/
  out : Outputs
  /-- The port inputs of the coming cycles, the next first; when none is listed, cycles with no port activity follow
  (R10): the model's own field (log 1). -/
  env : List Inputs
  /-- Offers not yet taken: the model's own field (log 4). -/
  held : Held
  deriving DecidableEq, Repr

/-- Why the machine stops with a fault. -/
inductive Fault where
  /-- Raised by `RX_PAYLOAD` and `RX_PAYLOAD_LAST` when `rx_idx` is at or beyond `RXBUF_CAP`: the spec gives that space
  no such address (R71, R123). No state a run reaches raises it (R131). Safe. -/
  | rxbufOutOfRange
  deriving DecidableEq, Repr

/-- Why the model gives a cycle no meaning. -/
inductive Refusal where
  /-- Raised by `exec` for an instruction without a meaning; no arm raises it. Safe. -/
  | notModelled (mnemonic : String)
  /-- Raised by `step` when a source drops or changes an offer the block has not taken: R11 (1), spec/93 I11 say that a
  model refuses such a run. Safe. -/
  | offerWithdrawn
  /-- Raised by `step` when the transmit client offers a payload byte it does not owe: R11 (3), spec/93 I11 say that a
  model refuses such a run. Safe. -/
  | payloadNotOwed
  /-- Raised by `step` when the decoder rejects a selector word a cycle presents; no cycle presents one (R99). Safe. -/
  | undecodable (e : DecodeError)
  deriving DecidableEq, Repr

/-! ## Reset (R65) -/

/-- The framer after reset (R65). -/
def RxUnit.reset : RxUnit :=
  { state := .waitStart, acc := 0, flags := 0, len := 0, cmd := 0, chk := 0, idx := 0, idle := 0, pending := false,
    buf := [], plRdQ := 0, chkErr := 0, lastDrop := 0 }

/-- The encoder after reset (R65). -/
def TxUnit.reset : TxUnit := { state := .idle, flags := 0, len := 0, cmd := 0, cnt := 0, acc := 0 }

/-- The mapper after reset (R65). -/
def MapUnit.reset : MapUnit :=
  { w := 0, n := 0, valid := false, addr := 0, strip := 0, pos := 0, last := false, err := 0 }

/-- The configuration registers after reset (R65): `MAX_PAYLOAD` is `RXBUF_CAP`. -/
def CsrUnit.reset (p : Params) : CsrUnit :=
  { txResp := true, maxPayload := BitVec.ofNat 11 p.rxbufCap, irqEn := 0, mode := .strip, physWidth := 0,
    stripCount := 0, brightness := 0xFF }

/-- The parameters at their defaults (R9). -/
def Params.default : Params :=
  { rxbufCap := Config.rxbufCapDefault, timeoutTicks := Config.timeoutTicksDefault }

/-- No output has been driven yet: DESIGN CHOICE (log 11). -/
def Outputs.none : Outputs :=
  { rxReady := false, txValid := false, txData := 0, txReqReady := false, txPlReady := false, pktValid := false,
    pktFlags := 0, pktLen := 0, pktCmd := 0, pktChk := 0, plRdData := 0, mapReqReady := false, mapRspValid := false,
    mapRspAddr := 0, mapRspStrip := 0, mapRspPos := 0, mapRspLast := false, mapRspErr := 0, scaleOut := 0,
    csrRdata := 0, irq := false }

/-- No offer waits. -/
def Held.none : Held := { rx := Option.none, txReq := Option.none, txPl := Option.none, mapReq := Option.none }

/-- The state right after reset (R65, R281), with the default parameters (R9), no `RXBUF` byte written since power-up
(spec/93 I1) and no port activity to come. -/
def State.reset : State :=
  { cfg := Params.default
    rx := RxUnit.reset
    tx := TxUnit.reset
    map := MapUnit.reset
    csr := CsrUnit.reset Params.default
    event := 0
    out := Outputs.none
    env := []
    held := Held.none }

/-! ## Named updates -/

/-- The state with another framer. -/
def State.setRx (s : State) (r : RxUnit) : State := { s with rx := r }
/-- The state with another encoder. -/
def State.setTx (s : State) (t : TxUnit) : State := { s with tx := t }
/-- The state with another mapper. -/
def State.setMap (s : State) (m : MapUnit) : State := { s with map := m }
/-- The state with other configuration registers. -/
def State.setCsr (s : State) (c : CsrUnit) : State := { s with csr := c }
/-- The state with another `EVENT`. -/
def State.setEvent (s : State) (e : BitVec 5) : State := { s with event := e }
/-- The state with other port outputs. -/
def State.setOut (s : State) (o : Outputs) : State := { s with out := o }

end Sys2Proof.Machine
end

