-- ==== Sys2Proof/Machine/Operands.lean ====
section
/-! DEFINITION. Operand forms: the bit codes of the encoded state elements, the assembled length, the selector words
and conditions the state and the inputs of a cycle present to the decoder, and the word each register reads as. -/

namespace Sys2Proof.Machine

/-! ## Codes (R24, R34, R47) -/

/-- The three bits of `rx_state` (R24). -/
def rxStateBits (r : RxState) : BitVec 3 :=
  match r with
  | .waitStart => 0
  | .readFlags => 1
  | .readLengthLow => 2
  | .readLengthHigh => 3
  | .readCommand => 4
  | .readPayload => 5
  | .readChecksum => 6
  | .unused7 => 7

/-- The state three bits code for (R24). -/
def rxStateOfBits (b : BitVec 3) : RxState :=
  match b.toNat with
  | 0 => .waitStart
  | 1 => .readFlags
  | 2 => .readLengthLow
  | 3 => .readLengthHigh
  | 4 => .readCommand
  | 5 => .readPayload
  | 6 => .readChecksum
  | _ => .unused7

/-- The three bits of `tx_state` (R34). -/
def txStateBits (t : TxState) : BitVec 3 :=
  match t with
  | .idle => 0
  | .start => 1
  | .flags => 2
  | .lenLo => 3
  | .lenHi => 4
  | .cmd => 5
  | .payload => 6
  | .chk => 7

/-- The two bits of `MAP_MODE.MODE` (R47). -/
def mapModeBits (m : MapMode) : BitVec 2 :=
  match m with
  | .strip => 0
  | .flat => 1
  | .folded => 2
  | .reserved => 3

/-- The mode two bits code for: all four values are stored (R47). -/
def mapModeOfBits (b : BitVec 2) : MapMode :=
  match b.toNat with
  | 0 => .strip
  | 1 => .flat
  | 2 => .folded
  | _ => .reserved

/-! ## The length (R72, R92) -/

/-- `v[7:0]`. -/
def lowHalf (v : Half) : Byte := v.setWidth 8

/-- `v[15:8]`. -/
def highHalf (v : Half) : Byte := v.extractLsb' 8 8

/-- `{hi, lo}`: the little-endian length, low byte first on the wire (R72, R92). -/
def lengthOf (hi lo : Byte) : Half := hi ++ lo

/-- `zext_16(b)` (R12). -/
def zext16 (b : Byte) : Half := b.setWidth 16

/-! ## Conditions of the rows that share a selector (R99, R101) -/

/-- `L = {b, S.rx_len[7:0]}` at the `length_hi` byte (R119, R120). -/
def declaredLength (s : State) (b : Byte) : Half := lengthOf b (lowHalf s.rx.len)

/-- Whether a length exceeds `MAX_PAYLOAD` (R120, R143). -/
def exceedsMax (s : State) (n : Half) : Bool := decide (s.csr.maxPayload.toNat < n.toNat)

/-- Whether the condition of the first row that shares the selector holds for a byte (R99). -/
def rxCondition (s : State) (b : Byte) : Bool :=
  match s.rx.state with
  | .readLengthHigh => exceedsMax s (declaredLength s b)
  | .readCommand => s.rx.len = 0
  | .readPayload => s.rx.idx.toNat + 1 = s.rx.len.toNat
  | .readChecksum => b = s.rx.acc
  | _ => false

/-! ## Flags of a transmitted packet (R145) -/

/-- `f | (TX_RESP ? RESPONSE_BIT : 0)` (R142, R145). -/
def sentFlags (s : State) (f : Byte) : Byte := if s.csr.txResp then f ||| Config.responseBit else f

/-! ## Geometry (R191) -/

/-- The fold factor of a mode (R191): 2 in folded matrix mode, else 1. -/
def foldFactor (m : MapMode) : Nat :=
  match m with
  | .folded => Config.foldSerpentine
  | _ => Config.foldFlat

/-- Whether the mode has a logical matrix (R51, R52). -/
def isMatrixMode (m : MapMode) : Bool :=
  match m with
  | .flat => true
  | .folded => true
  | _ => false

/-- `W = PHYS_WIDTH` (R191). -/
def widthOf (s : State) : Nat := s.csr.physWidth.toNat

/-- `N = STRIP_COUNT` (R191). -/
def stripsOf (s : State) : Nat := s.csr.stripCount.toNat

end Sys2Proof.Machine
end

