-- ==== Sys2Proof/Machine/Flags.lean ====
section
/-! DEFINITION. The block's status computations: the `EVENT` bits and their merge (R44, R262 to R265), the interrupt
level (R266), the geometry validity bit (R192), and the word each register reads as (R222 to R248). The packet flags
byte is data, not a condition (R22, R94). -/

namespace Sys2Proof.Machine

/-! ## EVENT (R44) -/

/-- `EVENT.CHK`, bit 0 (R44). -/
def eventChk : BitVec 5 := 0b00001
/-- `EVENT.OVS`, bit 1 (R44). -/
def eventOvs : BitVec 5 := 0b00010
/-- `EVENT.TMO`, bit 2 (R44). -/
def eventTmo : BitVec 5 := 0b00100
/-- `EVENT.TXERR`, bit 3 (R44). -/
def eventTxErr : BitVec 5 := 0b01000
/-- `EVENT.MAPERR`, bit 4 (R44). -/
def eventMapErr : BitVec 5 := 0b10000

/-- `bit(code)` of R262 for the three codes a receive drop has; no other code is raised (R264). -/
def dropBit (code : Byte) : BitVec 5 :=
  if code = Config.errChecksum then eventChk
  else if code = Config.errBufferOverflow then eventOvs
  else if code = Config.errTimeout then eventTmo
  else 0

/-- `(EVENT & ~clr) | set` (R265). -/
def mergeEvent (e clr set : BitVec 5) : BitVec 5 := (e &&& ~~~clr) ||| set

/-! ## irq (R266) -/

/-- The level the six sources give `irq` while `rst = 0` (R64, R266). -/
def irqLevel (s : State) : Bool :=
  decide (s.event &&& s.csr.irqEn.setWidth 5 ≠ 0) || (s.rx.pending && s.csr.irqEn.getLsbD 5)

/-! ## CFG_VALID (R192) -/

/-- `CFG_VALID` as a function of the three geometry registers (R192). -/
def geometryValid (mode : MapMode) (w n : Nat) : Bool :=
  let base := decide (1 ≤ n ∧ n ≤ Config.maxStrips ∧ 1 ≤ w ∧ n * w ≤ Config.maxPixels)
  match mode with
  | .strip => base
  | .flat => base
  | .folded => base && decide (w % 2 = 0)
  | .reserved => false

/-- `CFG_VALID(S)` (R192). -/
def cfgValid (s : State) : Bool := geometryValid s.csr.mode (widthOf s) (stripsOf s)

/-! ## Register words (R222 to R248) -/

/-- What `CTRL` reads as (R222). -/
def ctrlWord (s : State) : Half := (BitVec.ofBool s.csr.txResp).setWidth 16
/-- What `MAX_PAYLOAD` reads as (R224). -/
def maxPayloadWord (s : State) : Half := s.csr.maxPayload.setWidth 16
/-- What `CHKERR_CNT` reads as (R226). -/
def chkErrWord (s : State) : Half := s.rx.chkErr
/-- What `EVENT` reads as (R228). -/
def eventWord (s : State) : Half := s.event.setWidth 16
/-- What `IRQ_EN` reads as (R230). -/
def irqEnWord (s : State) : Half := s.csr.irqEn.setWidth 16
/-- What `STATUS` reads as: `{0, CFG_VALID, rsp_valid, tx_state, pkt_pending, rx_state}` (R46, R232). -/
def statusWord (s : State) : Half :=
  (BitVec.ofBool (cfgValid s) ++ (BitVec.ofBool s.map.valid ++ (txStateBits s.tx.state ++
    (BitVec.ofBool s.rx.pending ++ rxStateBits s.rx.state)))).setWidth 16
/-- What `MAP_MODE` reads as (R234). -/
def mapModeWord (s : State) : Half := (mapModeBits s.csr.mode).setWidth 16
/-- What `PHYS_WIDTH` reads as (R236). -/
def physWidthWord (s : State) : Half := s.csr.physWidth
/-- What `STRIP_COUNT` reads as (R238). -/
def stripCountWord (s : State) : Half := s.csr.stripCount.setWidth 16
/-- What `BRIGHTNESS` reads as (R240). -/
def brightnessWord (s : State) : Half := s.csr.brightness.setWidth 16
/-- What `MATRIX_WIDTH` reads as: `W / F` in a valid matrix mode, else 0 (R51, R242). -/
def matrixWidthWord (s : State) : Half :=
  if cfgValid s && isMatrixMode s.csr.mode then BitVec.ofNat 16 (widthOf s / foldFactor s.csr.mode) else 0
/-- What `MATRIX_HEIGHT` reads as: `N × F` in a valid matrix mode, else 0 (R52, R244). -/
def matrixHeightWord (s : State) : Half :=
  if cfgValid s && isMatrixMode s.csr.mode then BitVec.ofNat 16 (stripsOf s * foldFactor s.csr.mode) else 0
/-- What `LAST_DROP` reads as (R246). -/
def lastDropWord (s : State) : Half := s.rx.lastDrop.setWidth 16
/-- What the reserved addresses read as (R54, R248). -/
def reservedWord : Half := 0

/-- `rd(S, csr_addr)` (R221, R222 to R248). -/
def readRegister (s : State) (addr : BitVec 4) : Half :=
  match addr.toNat with
  | 0 => ctrlWord s
  | 1 => maxPayloadWord s
  | 2 => chkErrWord s
  | 3 => eventWord s
  | 4 => irqEnWord s
  | 5 => statusWord s
  | 6 => mapModeWord s
  | 7 => physWidthWord s
  | 8 => stripCountWord s
  | 9 => brightnessWord s
  | 10 => matrixWidthWord s
  | 11 => matrixHeightWord s
  | 12 => lastDropWord s
  | _ => reservedWord

end Sys2Proof.Machine
end

