-- ==== Sys2Proof/Machine/Ops.lean ====
section
/-! DEFINITION. The named operations the meanings share: `RXBUF` reads and writes (R14, R30, R78), raising a drop or an
error (the block's counterpart of taking an exception, R262, R263, R268; there is no return, R269), accepting a byte,
sending a byte, loading a response beat, driving read data, and the reset of every unit (R281). -/

namespace Sys2Proof.Machine

/-- A step's outcome: the next state, a fault, a refusal. -/
abbrev Result := Host.Outcome State Fault Refusal

/-! ## RXBUF (R30, R71): a list of (address, byte), addresses strictly rising, of the bytes written since power-up -/

/-- The byte at an address, if something has been written there. -/
def Memory.find : List Host.Cell → Nat → Option Byte
  | [], _ => none
  | (k, v) :: m, a => if a = k then some v else Memory.find m a

/-- What byte `a` holds: what was last written, else the arbitrary value it powered up with (R30, spec/93 I1, log 3). -/
def Memory.read (m : List Host.Cell) (a : Nat) : Byte := (Memory.find m a).getD (Config.rxbufPowerUp a)

/-- `MemWrite(a, 1, v)` (R14): the entry in its place by address. -/
def Memory.write : List Host.Cell → Nat → Byte → List Host.Cell
  | [], a, v => [(a, v)]
  | (k, u) :: m, a, v =>
    if a < k then (a, v) :: (k, u) :: m
    else if a = k then (a, v) :: m
    else (k, u) :: Memory.write m a v

/-- Every address of the list is above `lo`, and they rise strictly. -/
def Memory.risingFrom (lo : Nat) : List Host.Cell → Bool
  | [] => true
  | (k, _) :: m => decide (lo < k) && Memory.risingFrom k m

/-- The canonical form: addresses strictly rising. An unlisted address holds no written byte, so no entry equals what an
unlisted address reads as. -/
def Memory.wf : List Host.Cell → Bool
  | [] => true
  | (k, _) :: m => Memory.risingFrom k m

/-- `MemRead` of the payload read port: 0x00 at or beyond `RXBUF_CAP` (R78, R130). -/
def readRxbuf (s : State) (a : Nat) : Byte := if a < s.cfg.rxbufCap then Memory.read s.rx.buf a else 0

/-! ## Drops and errors (R262, R263, R268) -/

/-- Sets `EVENT` bits (R265, with nothing cleared). -/
def raiseEvent (bits : BitVec 5) (s : State) : State := s.setEvent (mergeEvent s.event 0 bits)

/-- `raise Drop(code)` with the resynchronisation that every rule raising one performs: `rx_state` to `WaitStart`,
`LAST_DROP` the code, the code's `EVENT` bit set; nothing is saved, and there is no return (R262, R268, R269). -/
def raiseDrop (code : Byte) (s : State) : State :=
  raiseEvent (dropBit code) (s.setRx { s.rx with state := .waitStart, lastDrop := code })

/-- `raise Err(0x05)` from the encoder: `EVENT.TXERR` (R263). -/
def raiseTxErr (s : State) : State := raiseEvent eventTxErr s

/-- `raise Err(code)` from the mapper: `EVENT.MAPERR` (R263). -/
def raiseMapErr (s : State) : State := raiseEvent eventMapErr s

/-! ## The receive framer -/

/-- Every accepted byte sets `idle_cnt` to 0 (R112). -/
def acceptByte (s : State) : State := s.setRx { s.rx with idle := 0 }

/-- A start byte in `WaitStart` (R115). -/
def startPacket (s : State) : State := s.setRx { s.rx with idle := 0, acc := 0, state := .readFlags }

/-- A byte of `WaitStart` or of the unused state: the start byte opens a packet, any other is skipped (R115, R116, R127). -/
def waitByte (b : Byte) (s : State) : State := if b = Config.startByte then startPacket s else acceptByte s

/-- The command byte of a packet with no payload (R121). -/
def commandNoPayload (b : Byte) (s : State) : State :=
  s.setRx { s.rx with idle := 0, cmd := b, acc := s.rx.acc ^^^ b, state := .readChecksum }

/-- The command byte of a packet with a payload (R122). -/
def commandWithPayload (b : Byte) (s : State) : State :=
  s.setRx { s.rx with idle := 0, cmd := b, acc := s.rx.acc ^^^ b, idx := 0, state := .readPayload }

/-- A payload byte stored at `rx_idx`, the framer moving to `next` (R123, R124). The address exists in every state a run
reaches (R123); elsewhere the access faults (log 10). -/
def storePayload (b : Byte) (next : RxState) (s : State) : Result :=
  if s.rx.idx.toNat < s.cfg.rxbufCap then
    .next (s.setRx
      { s.rx with
        idle := 0
        buf := Memory.write s.rx.buf s.rx.idx.toNat b
        acc := s.rx.acc ^^^ b
        idx := s.rx.idx + 1
        state := next })
  else .fault .rxbufOutOfRange

/-- Whether the inter-byte timeout runs in a receive state: outside `WaitStart` and the unused state (R113, R127). -/
def timeoutRuns (r : RxState) : Bool :=
  match r with
  | .waitStart => false
  | .unused7 => false
  | _ => true

/-- `idle_cnt <- min(idle_cnt + 1, TIMEOUT_TICKS + 1)` (R113). -/
def countTick (s : State) : State := s.setRx { s.rx with idle := min (s.rx.idle + 1) (s.cfg.timeoutTicks + 1) }

/-- Whether a tick discards the partial packet (R113). -/
def tickExpires (s : State) : Bool := timeoutRuns s.rx.state && decide (s.cfg.timeoutTicks < s.rx.idle + 1)

/-! ## The transmit encoder -/

/-- The byte sent in this cycle, on `tx_valid` and `tx_data` (R57, R144). -/
def sendByte (b : Byte) (s : State) : State := s.setOut { s.out with txValid := true, txData := b }

/-- A header byte sent: it enters the checksum, and the encoder moves on (R147 to R149). -/
def sendHeader (b : Byte) (next : TxState) (s : State) : State :=
  (sendByte b s).setTx { s.tx with acc := s.tx.acc ^^^ b, state := next }

/-! ## The mapper -/

/-- `beat(strip, pos, addr, last, err)` (R193); each value is stored modulo its register's width (R12). -/
def loadBeat (strip pos addr : Nat) (last : Bool) (err : Byte) (s : State) : State :=
  s.setMap
    { s.map with
      strip := BitVec.ofNat 4 strip
      pos := BitVec.ofNat 16 pos
      addr := BitVec.ofNat 16 addr
      last := last
      err := err
      valid := true }

/-- An error beat and its `EVENT.MAPERR` (R203). -/
def errorBeat (code : Byte) (s : State) : State := raiseMapErr (loadBeat 0 0 0 true code s)

/-- One strip (R196). -/
def mapStripBeat (strip : Byte) (l : Half) (s : State) : State :=
  if stripsOf s ≤ strip.toNat ∨ widthOf s ≤ l.toNat then errorBeat Config.errInvalidParam s
  else loadBeat strip.toNat l.toNat (strip.toNat * widthOf s + l.toNat) true Config.errOk s

/-- All strips: the first of the `N` beats (R197). -/
def mapBroadcastBeat (l : Half) (s : State) : State :=
  if widthOf s ≤ l.toNat then errorBeat Config.errInvalidParam s
  else loadBeat 0 l.toNat l.toNat (decide (stripsOf s = 1)) Config.errOk s

/-- Flat matrix mode (R199). -/
def mapFlatBeat (l : Half) (s : State) : State :=
  let w := widthOf s
  if w * stripsOf s ≤ l.toNat then errorBeat Config.errInvalidParam s
  else
    let row := l.toNat / w
    let col := l.toNat % w
    loadBeat row col (row * w + col) true Config.errOk s

/-- The physical position of a logical column in folded mode: forward in the first half of a strip, backward in the
second (R200). -/
def foldPosition (w row col : Nat) : Nat := if row % 2 = 0 then col else w - 1 - col

/-- Folded matrix mode (R200). -/
def mapFoldBeat (l : Half) (s : State) : State :=
  let w := widthOf s
  let width := w / Config.foldSerpentine
  let height := Config.foldSerpentine * stripsOf s
  if width * height ≤ l.toNat then errorBeat Config.errInvalidParam s
  else
    let row := l.toNat / width
    let col := l.toNat % width
    let pos := foldPosition w row col
    loadBeat (row / 2) pos (row / 2 * w + pos) true Config.errOk s

/-- The latch of the geometry at acceptance (R194). -/
def latchGeometry (s : State) : State := s.setMap { s.map with w := s.csr.physWidth, n := s.csr.stripCount }

/-- The row a request takes: `CFG_VALID = 0` first, then by mode and strip id (R102, R194). -/
def applyMapRow (strip : Byte) (l : Half) (s : State) : State :=
  if cfgValid s then
    match s.csr.mode with
    | .strip => if strip = Config.broadcastStrip then mapBroadcastBeat l s else mapStripBeat strip l s
    | .flat => mapFlatBeat l s
    | .folded => mapFoldBeat l s
    | .reserved => errorBeat Config.errConfig s
  else errorBeat Config.errConfig s

/-- The continuation beat of a broadcast, from the latched geometry (R198). -/
def nextBroadcastBeat (s : State) : State :=
  let k := s.map.strip.toNat + 1
  loadBeat k s.map.pos.toNat (s.map.addr.toNat + s.map.w.toNat) (decide (k + 1 = s.map.n.toNat)) Config.errOk s

/-! ## Registers -/

/-- The read data of this cycle, on `csr_rdata` (R63, R221); 0 in a cycle that is no read. -/
def driveReadData (v : Half) (s : State) : State := s.setOut { s.out with csrRdata := v }

/-- A register write: the new configuration, and read data 0 (R221). -/
def writeConfig (c : CsrUnit) (s : State) : State := driveReadData 0 (s.setCsr c)

/-- A write that is ignored: read data 0 and nothing else (R227, R233, R243, R245, R247, R249). -/
def ignoreWrite (s : State) : State := driveReadData 0 s

/-! ## The scaler (R206) -/

/-- `(v × (b + 1)) >> 8` (R206). -/
def scaleValue (v b : Byte) : Byte := BitVec.ofNat 8 ((v.toNat * (b.toNat + 1)) >>> 8)

/-! ## Wire commands (R161) -/

/-- The framer takes a command code as a packet's command byte, unchanged, whatever the code (R121, R122, R161). -/
def carryCommand (code : Byte) (s : State) : State :=
  if s.rx.len = 0 then commandNoPayload code s else commandWithPayload code s

/-! ## Reset (R281) -/

/-- Every element at its value of R65 except `RXBUF`, which keeps its contents; ready, `tx_valid`, `irq` and
`csr_rdata` outputs are 0 in the cycle (R281). -/
def resetBlock (s : State) : State :=
  { s with
    rx := { RxUnit.reset with buf := s.rx.buf }
    tx := TxUnit.reset
    map := MapUnit.reset
    csr := CsrUnit.reset s.cfg
    event := 0
    out :=
      { s.out with
        rxReady := false, txReqReady := false, txPlReady := false, mapReqReady := false, txValid := false,
        irq := false, csrRdata := 0 } }

end Sys2Proof.Machine
end

