-- ==== Sys2Proof/Machine/Csr.lean ====
section
/-! DEFINITION. Register access (spec/44_csr_access.md R222 to R250): one operation for the read and one for the write
of each address. A read drives `csr_rdata` from the pre-state and changes no state (R77, R221); in any other cycle
`csr_rdata` is 0. -/

namespace Sys2Proof.Machine

/-- `CSR_RD_CTRL` (R222). -/
def execCsrRdCtrl (s : State) : Result := .next (driveReadData (ctrlWord s) s)

/-- `CSR_WR_CTRL` (R223): bits 15:1 are ignored. -/
def execCsrWrCtrl (d : Half) (s : State) : Result :=
  .next (writeConfig { s.csr with txResp := d.getLsbD 0 } s)

/-- `CSR_RD_MAX_PAYLOAD` (R224). -/
def execCsrRdMaxPayload (s : State) : Result := .next (driveReadData (maxPayloadWord s) s)

/-- `CSR_WR_MAX_PAYLOAD` (R225): write-any-read-legal, clamped to `RXBUF_CAP`. -/
def execCsrWrMaxPayload (d : Half) (s : State) : Result :=
  .next (writeConfig { s.csr with maxPayload := BitVec.ofNat 11 (min d.toNat s.cfg.rxbufCap) } s)

/-- `CSR_RD_CHKERR_CNT` (R226). -/
def execCsrRdChkerrCnt (s : State) : Result := .next (driveReadData (chkErrWord s) s)

/-- `CSR_WR_CHKERR_CNT` (R227): the write is ignored. -/
def execCsrWrChkerrCnt (_d : Half) (s : State) : Result := .next (ignoreWrite s)

/-- `CSR_RD_EVENT` (R228). -/
def execCsrRdEvent (s : State) : Result := .next (driveReadData (eventWord s) s)

/-- `CSR_WR_EVENT` (R229): clears the bits written as 1; bits raised in the same cycle win, because the units raise after it (R265). -/
def execCsrWrEvent (d : Half) (s : State) : Result :=
  .next (driveReadData 0 (s.setEvent (mergeEvent s.event (d.setWidth 5) 0)))

/-- `CSR_RD_IRQ_EN` (R230). -/
def execCsrRdIrqEn (s : State) : Result := .next (driveReadData (irqEnWord s) s)

/-- `CSR_WR_IRQ_EN` (R231): bits 15:6 are ignored. -/
def execCsrWrIrqEn (d : Half) (s : State) : Result :=
  .next (writeConfig { s.csr with irqEn := d.setWidth 6 } s)

/-- `CSR_RD_STATUS` (R232). -/
def execCsrRdStatus (s : State) : Result := .next (driveReadData (statusWord s) s)

/-- `CSR_WR_STATUS` (R233): the write is ignored. -/
def execCsrWrStatus (_d : Half) (s : State) : Result := .next (ignoreWrite s)

/-- `CSR_RD_MAP_MODE` (R234). -/
def execCsrRdMapMode (s : State) : Result := .next (driveReadData (mapModeWord s) s)

/-- `CSR_WR_MAP_MODE` (R235): all four values are stored. -/
def execCsrWrMapMode (d : Half) (s : State) : Result :=
  .next (writeConfig { s.csr with mode := mapModeOfBits (d.setWidth 2) } s)

/-- `CSR_RD_PHYS_WIDTH` (R236). -/
def execCsrRdPhysWidth (s : State) : Result := .next (driveReadData (physWidthWord s) s)

/-- `CSR_WR_PHYS_WIDTH` (R237). -/
def execCsrWrPhysWidth (d : Half) (s : State) : Result :=
  .next (writeConfig { s.csr with physWidth := d } s)

/-- `CSR_RD_STRIP_COUNT` (R238). -/
def execCsrRdStripCount (s : State) : Result := .next (driveReadData (stripCountWord s) s)

/-- `CSR_WR_STRIP_COUNT` (R239): bits 15:5 are ignored. -/
def execCsrWrStripCount (d : Half) (s : State) : Result :=
  .next (writeConfig { s.csr with stripCount := d.setWidth 5 } s)

/-- `CSR_RD_BRIGHTNESS` (R240). -/
def execCsrRdBrightness (s : State) : Result := .next (driveReadData (brightnessWord s) s)

/-- `CSR_WR_BRIGHTNESS` (R241): bits 15:8 are ignored. -/
def execCsrWrBrightness (d : Half) (s : State) : Result :=
  .next (writeConfig { s.csr with brightness := d.setWidth 8 } s)

/-- `CSR_RD_MATRIX_WIDTH` (R242). -/
def execCsrRdMatrixWidth (s : State) : Result := .next (driveReadData (matrixWidthWord s) s)

/-- `CSR_WR_MATRIX_WIDTH` (R243): the write is ignored. -/
def execCsrWrMatrixWidth (_d : Half) (s : State) : Result := .next (ignoreWrite s)

/-- `CSR_RD_MATRIX_HEIGHT` (R244). -/
def execCsrRdMatrixHeight (s : State) : Result := .next (driveReadData (matrixHeightWord s) s)

/-- `CSR_WR_MATRIX_HEIGHT` (R245): the write is ignored. -/
def execCsrWrMatrixHeight (_d : Half) (s : State) : Result := .next (ignoreWrite s)

/-- `CSR_RD_LAST_DROP` (R246). -/
def execCsrRdLastDrop (s : State) : Result := .next (driveReadData (lastDropWord s) s)

/-- `CSR_WR_LAST_DROP` (R247): the write is ignored. -/
def execCsrWrLastDrop (_d : Half) (s : State) : Result := .next (ignoreWrite s)

/-- `CSR_RD_RSVD_D` (R248). -/
def execCsrRdRsvdD (s : State) : Result := .next (driveReadData reservedWord s)

/-- `CSR_WR_RSVD_D` (R249): the write is ignored. -/
def execCsrWrRsvdD (_d : Half) (s : State) : Result := .next (ignoreWrite s)

/-- `CSR_RD_RSVD_E` (R248). -/
def execCsrRdRsvdE (s : State) : Result := .next (driveReadData reservedWord s)

/-- `CSR_WR_RSVD_E` (R249): the write is ignored. -/
def execCsrWrRsvdE (_d : Half) (s : State) : Result := .next (ignoreWrite s)

/-- `CSR_RD_RSVD_F` (R248). -/
def execCsrRdRsvdF (s : State) : Result := .next (driveReadData reservedWord s)

/-- `CSR_WR_RSVD_F` (R249): the write is ignored. -/
def execCsrWrRsvdF (_d : Half) (s : State) : Result := .next (ignoreWrite s)

/-- `CSR_IDLE` (R250). -/
def execCsrIdle (s : State) : Result := .next (driveReadData 0 s)

end Sys2Proof.Machine
end

