-- ==== Sys2Proof/Machine/Mapper.lean ====
section
/-! DEFINITION. The pixel address mapper's operations and the scaler (spec/43_pixel_mapper.md R194 to R206). -/

namespace Sys2Proof.Machine

/-- `MAP_ACCEPT` (R194): the geometry is latched, then the first matching row applies. -/
def execMapAccept (strip : Byte) (l : Half) (s : State) : Result := .next (applyMapRow strip l (latchGeometry s))

/-- `MAP_CFG_ERR` (R195). -/
def execMapCfgErr (_strip : Byte) (_l : Half) (s : State) : Result := .next (errorBeat Config.errConfig s)

/-- `MAP_STRIP_BCAST` (R197). -/
def execMapStripBcast (l : Half) (s : State) : Result := .next (mapBroadcastBeat l s)

/-- `MAP_STRIP` (R196). -/
def execMapStrip (strip : Byte) (l : Half) (s : State) : Result := .next (mapStripBeat strip l s)

/-- `MAP_FLAT` (R199): the strip id is ignored. -/
def execMapFlat (_strip : Byte) (l : Half) (s : State) : Result := .next (mapFlatBeat l s)

/-- `MAP_FOLD` (R200): the strip id is ignored. -/
def execMapFold (_strip : Byte) (l : Half) (s : State) : Result := .next (mapFoldBeat l s)

/-- `MAP_RSVD` (R201): acts as R195. -/
def execMapRsvd (_strip : Byte) (_l : Half) (s : State) : Result := .next (errorBeat Config.errConfig s)

/-- `MAP_BEAT` (R202): the last beat ends the request, any other loads the next one. -/
def execMapBeat (s : State) : Result :=
  .next (if s.map.last then s.setMap { s.map with valid := false } else nextBroadcastBeat s)

/-- `MAP_BCAST_NEXT` (R198). -/
def execMapBcastNext (s : State) : Result := .next (nextBroadcastBeat s)

/-- `SCALE` (R206): combinational, on `scale_out`. -/
def execScale (v : Byte) (s : State) : Result :=
  .next (s.setOut { s.out with scaleOut := scaleValue v s.csr.brightness })

end Sys2Proof.Machine
end

