-- ==== Sys2Proof/Machine/Reset.lean ====
section
/-! DEFINITION. The reset operation (spec/70_reset_and_hazards.md R281). -/

namespace Sys2Proof.Machine

/-- `RESET` (R281, R282): every element but `RXBUF` takes its reset value. -/
def execReset (s : State) : Result := .next (resetBlock s)

end Sys2Proof.Machine
end

