-- ==== Sys2Proof/Machine/RxFramer.lean ====
section
/-! DEFINITION. The receive framer's operations (spec/40_rx_framer.md R113 to R130). Every byte operation includes the
`idle_cnt <- 0` of R112. -/

namespace Sys2Proof.Machine

/-- `RX_WS_START` (R115). -/
def execRxWsStart (s : State) : Result := .next (startPacket s)

/-- `RX_WS_SKIP` (R116): the byte is discarded, whatever it is. -/
def execRxWsSkip (_b : Byte) (s : State) : Result := .next (acceptByte s)

/-- `RX_FLAGS` (R117). -/
def execRxFlags (b : Byte) (s : State) : Result :=
  .next (s.setRx { s.rx with idle := 0, flags := b, acc := s.rx.acc ^^^ b, state := .readLengthLow })

/-- `RX_LEN_LO` (R118). -/
def execRxLenLo (b : Byte) (s : State) : Result :=
  .next (s.setRx { s.rx with idle := 0, len := zext16 b, acc := s.rx.acc ^^^ b, state := .readLengthHigh })

/-- `RX_LEN_HI_OVERSIZE` (R120): the length is written, the accumulator is not, and the packet is dropped. -/
def execRxLenHiOversize (b : Byte) (s : State) : Result :=
  .next (raiseDrop Config.errBufferOverflow (s.setRx { s.rx with idle := 0, len := declaredLength s b }))

/-- `RX_LEN_HI` (R119). -/
def execRxLenHi (b : Byte) (s : State) : Result :=
  .next (s.setRx { s.rx with idle := 0, len := declaredLength s b, acc := s.rx.acc ^^^ b, state := .readCommand })

/-- `RX_CMD_EMPTY` (R121). -/
def execRxCmdEmpty (b : Byte) (s : State) : Result := .next (commandNoPayload b s)

/-- `RX_CMD` (R122). -/
def execRxCmd (b : Byte) (s : State) : Result := .next (commandWithPayload b s)

/-- `RX_PAYLOAD_LAST` (R124). -/
def execRxPayloadLast (b : Byte) (s : State) : Result := storePayload b .readChecksum s

/-- `RX_PAYLOAD` (R123): `rx_state` is unchanged. -/
def execRxPayload (b : Byte) (s : State) : Result := storePayload b s.rx.state s

/-- `RX_CHK_OK` (R125). -/
def execRxChkOk (b : Byte) (s : State) : Result :=
  .next (s.setRx { s.rx with idle := 0, chk := b, pending := true, state := .waitStart })

/-- `RX_CHK_BAD` (R126): the counter wraps modulo 2^16, and the packet is dropped. -/
def execRxChkBad (_b : Byte) (s : State) : Result :=
  .next (raiseDrop Config.errChecksum (s.setRx { s.rx with idle := 0, chkErr := s.rx.chkErr + 1 }))

/-- `RX_STATE7` (R127): as in `WaitStart`. -/
def execRxState7 (b : Byte) (s : State) : Result := .next (waitByte b s)

/-- `RX_TICK` (R113), with the timeout it raises. -/
def execRxTick (s : State) : Result :=
  .next (if tickExpires s then raiseDrop Config.errTimeout (countTick s) else countTick s)

/-- `RX_TIMEOUT` (R114). -/
def execRxTimeout (s : State) : Result := .next (raiseDrop Config.errTimeout s)

/-- `PKT_ACK` (R129). -/
def execPktAck (s : State) : Result :=
  .next (if s.rx.pending then s.setRx { s.rx with pending := false } else s)

/-- `PL_RD` (R130). -/
def execPlRd (a : BitVec 10) (s : State) : Result :=
  .next (s.setRx { s.rx with plRdQ := readRxbuf s a.toNat })

end Sys2Proof.Machine
end

