-- ==== Sys2Proof/Machine/TxEncoder.lean ====
section
/-! DEFINITION. The transmit encoder's operations (spec/41_tx_encoder.md R142 to R152). An emitted byte stands on
`tx_valid` and `tx_data` (R144). -/

namespace Sys2Proof.Machine

/-- `TX_REQ` (R142, R145). -/
def execTxReq (f c : Byte) (n : Half) (s : State) : Result :=
  .next (s.setTx { state := .start, flags := sentFlags s f, len := n, cmd := c, cnt := 0, acc := 0 })

/-- `TX_REQ_REFUSE` (R143): nothing but `EVENT.TXERR`. -/
def execTxReqRefuse (_n : Half) (s : State) : Result := .next (raiseTxErr s)

/-- `TX_EMIT_START` (R146): the start byte is not in the checksum. -/
def execTxEmitStart (s : State) : Result :=
  .next ((sendByte Config.startByte s).setTx { s.tx with state := .flags })

/-- `TX_EMIT_FLAGS` (R147). -/
def execTxEmitFlags (s : State) : Result := .next (sendHeader s.tx.flags .lenLo s)

/-- `TX_EMIT_LEN_LO` (R148). -/
def execTxEmitLenLo (s : State) : Result := .next (sendHeader (lowHalf s.tx.len) .lenHi s)

/-- `TX_EMIT_LEN_HI` (R149). -/
def execTxEmitLenHi (s : State) : Result := .next (sendHeader (highHalf s.tx.len) .cmd s)

/-- `TX_EMIT_CMD` (R150): a packet with no payload goes straight to the checksum. -/
def execTxEmitCmd (s : State) : Result :=
  .next
    (if s.tx.len = 0 then sendHeader s.tx.cmd .chk s
    else (sendByte s.tx.cmd s).setTx { s.tx with acc := s.tx.acc ^^^ s.tx.cmd, cnt := 0, state := .payload })

/-- `TX_EMIT_PAYLOAD` (R151): the payload byte passes straight to the sink. -/
def execTxEmitPayload (p : Byte) (s : State) : Result :=
  .next ((sendByte p s).setTx
    { s.tx with
      acc := s.tx.acc ^^^ p
      cnt := s.tx.cnt + 1
      state := if s.tx.cnt.toNat + 1 = s.tx.len.toNat then .chk else s.tx.state })

/-- `TX_EMIT_CHK` (R152). -/
def execTxEmitChk (s : State) : Result := .next ((sendByte s.tx.acc s).setTx { s.tx with state := .idle })

end Sys2Proof.Machine
end

