-- ==== Sys2Proof/Machine/WireCommand.lean ====
section
/-! DEFINITION. The 19 wire command codes (spec/42_command_codes.md R163 to R181): data in a packet's command byte. The
block's part in each is to carry it unchanged (R161): the framer takes it as the command byte of the packet it is
receiving (R121, R122; log 14). What the dispatcher does with a code is outside the block (R6). -/

namespace Sys2Proof.Machine

/-- `CMD_NOP` (R163): carried unchanged. -/
def execCmdNop (s : State) : Result := .next (carryCommand Config.cmdNop s)

/-- `CMD_RESET` (R164): carried unchanged. -/
def execCmdReset (s : State) : Result := .next (carryCommand Config.cmdReset s)

/-- `CMD_ACK` (R165): carried unchanged. -/
def execCmdAck (s : State) : Result := .next (carryCommand Config.cmdAck s)

/-- `CMD_NAK` (R166): carried unchanged. -/
def execCmdNak (s : State) : Result := .next (carryCommand Config.cmdNak s)

/-- `CMD_HELLO` (R167): carried unchanged. -/
def execCmdHello (s : State) : Result := .next (carryCommand Config.cmdHello s)

/-- `CMD_SHOW` (R168): carried unchanged. -/
def execCmdShow (s : State) : Result := .next (carryCommand Config.cmdShow s)

/-- `CMD_GET_INFO` (R169): carried unchanged. -/
def execCmdGetInfo (s : State) : Result := .next (carryCommand Config.cmdGetInfo s)

/-- `CMD_GET_PIXELS` (R170): carried unchanged. -/
def execCmdGetPixels (s : State) : Result := .next (carryCommand Config.cmdGetPixels s)

/-- `CMD_GET_CONTROL` (R171): carried unchanged. -/
def execCmdGetControl (s : State) : Result := .next (carryCommand Config.cmdGetControl s)

/-- `CMD_INFO_RESPONSE` (R172): carried unchanged. -/
def execCmdInfoResponse (s : State) : Result := .next (carryCommand Config.cmdInfoResponse s)

/-- `CMD_PIXEL_RESPONSE` (R173): carried unchanged. -/
def execCmdPixelResponse (s : State) : Result := .next (carryCommand Config.cmdPixelResponse s)

/-- `CMD_CONTROL_RESPONSE` (R174): carried unchanged. -/
def execCmdControlResponse (s : State) : Result := .next (carryCommand Config.cmdControlResponse s)

/-- `CMD_PIXEL_SET_ALL` (R175): carried unchanged. -/
def execCmdPixelSetAll (s : State) : Result := .next (carryCommand Config.cmdPixelSetAll s)

/-- `CMD_PIXEL_SET_RANGE` (R176): carried unchanged. -/
def execCmdPixelSetRange (s : State) : Result := .next (carryCommand Config.cmdPixelSetRange s)

/-- `CMD_PIXEL_FRAME` (R177): carried unchanged. -/
def execCmdPixelFrame (s : State) : Result := .next (carryCommand Config.cmdPixelFrame s)

/-- `CMD_SET_CONTROL` (R178): carried unchanged. -/
def execCmdSetControl (s : State) : Result := .next (carryCommand Config.cmdSetControl s)

/-- `CMD_STATUS_UPDATE` (R179): carried unchanged. -/
def execCmdStatusUpdate (s : State) : Result := .next (carryCommand Config.cmdStatusUpdate s)

/-- `CMD_FRAME_ACK` (R180): carried unchanged. -/
def execCmdFrameAck (s : State) : Result := .next (carryCommand Config.cmdFrameAck s)

/-- `CMD_INPUT_EVENT` (R181): carried unchanged. -/
def execCmdInputEvent (s : State) : Result := .next (carryCommand Config.cmdInputEvent s)

end Sys2Proof.Machine
end

