-- ==== Sys2Proof/Machine/Dispatch.lean ====
section
/-! DEFINITION. One arm per operation: `exec i s` applies the rule of operation `i` to `s` (log 8). -/

namespace Sys2Proof.Machine

def exec (i : Instr) (s : State) : Host.Outcome State Fault Refusal :=
  match i with
  | .rxWsStart => Sys2Proof.Machine.execRxWsStart s
  | .rxWsSkip b => Sys2Proof.Machine.execRxWsSkip b s
  | .rxFlags b => Sys2Proof.Machine.execRxFlags b s
  | .rxLenLo b => Sys2Proof.Machine.execRxLenLo b s
  | .rxLenHiOversize b => Sys2Proof.Machine.execRxLenHiOversize b s
  | .rxLenHi b => Sys2Proof.Machine.execRxLenHi b s
  | .rxCmdEmpty b => Sys2Proof.Machine.execRxCmdEmpty b s
  | .rxCmd b => Sys2Proof.Machine.execRxCmd b s
  | .rxPayloadLast b => Sys2Proof.Machine.execRxPayloadLast b s
  | .rxPayload b => Sys2Proof.Machine.execRxPayload b s
  | .rxChkOk b => Sys2Proof.Machine.execRxChkOk b s
  | .rxChkBad b => Sys2Proof.Machine.execRxChkBad b s
  | .rxState7 b => Sys2Proof.Machine.execRxState7 b s
  | .rxTick => Sys2Proof.Machine.execRxTick s
  | .rxTimeout => Sys2Proof.Machine.execRxTimeout s
  | .pktAck => Sys2Proof.Machine.execPktAck s
  | .plRd a => Sys2Proof.Machine.execPlRd a s
  | .txReq f c n => Sys2Proof.Machine.execTxReq f c n s
  | .txReqRefuse n => Sys2Proof.Machine.execTxReqRefuse n s
  | .txEmitStart => Sys2Proof.Machine.execTxEmitStart s
  | .txEmitFlags => Sys2Proof.Machine.execTxEmitFlags s
  | .txEmitLenLo => Sys2Proof.Machine.execTxEmitLenLo s
  | .txEmitLenHi => Sys2Proof.Machine.execTxEmitLenHi s
  | .txEmitCmd => Sys2Proof.Machine.execTxEmitCmd s
  | .txEmitPayload p => Sys2Proof.Machine.execTxEmitPayload p s
  | .txEmitChk => Sys2Proof.Machine.execTxEmitChk s
  | .mapAccept strip l => Sys2Proof.Machine.execMapAccept strip l s
  | .mapCfgErr strip l => Sys2Proof.Machine.execMapCfgErr strip l s
  | .mapStripBcast l => Sys2Proof.Machine.execMapStripBcast l s
  | .mapStrip strip l => Sys2Proof.Machine.execMapStrip strip l s
  | .mapFlat strip l => Sys2Proof.Machine.execMapFlat strip l s
  | .mapFold strip l => Sys2Proof.Machine.execMapFold strip l s
  | .mapRsvd strip l => Sys2Proof.Machine.execMapRsvd strip l s
  | .mapBeat => Sys2Proof.Machine.execMapBeat s
  | .mapBcastNext => Sys2Proof.Machine.execMapBcastNext s
  | .csrRdCtrl => Sys2Proof.Machine.execCsrRdCtrl s
  | .csrWrCtrl d => Sys2Proof.Machine.execCsrWrCtrl d s
  | .csrRdMaxPayload => Sys2Proof.Machine.execCsrRdMaxPayload s
  | .csrWrMaxPayload d => Sys2Proof.Machine.execCsrWrMaxPayload d s
  | .csrRdChkerrCnt => Sys2Proof.Machine.execCsrRdChkerrCnt s
  | .csrWrChkerrCnt d => Sys2Proof.Machine.execCsrWrChkerrCnt d s
  | .csrRdEvent => Sys2Proof.Machine.execCsrRdEvent s
  | .csrWrEvent d => Sys2Proof.Machine.execCsrWrEvent d s
  | .csrRdIrqEn => Sys2Proof.Machine.execCsrRdIrqEn s
  | .csrWrIrqEn d => Sys2Proof.Machine.execCsrWrIrqEn d s
  | .csrRdStatus => Sys2Proof.Machine.execCsrRdStatus s
  | .csrWrStatus d => Sys2Proof.Machine.execCsrWrStatus d s
  | .csrRdMapMode => Sys2Proof.Machine.execCsrRdMapMode s
  | .csrWrMapMode d => Sys2Proof.Machine.execCsrWrMapMode d s
  | .csrRdPhysWidth => Sys2Proof.Machine.execCsrRdPhysWidth s
  | .csrWrPhysWidth d => Sys2Proof.Machine.execCsrWrPhysWidth d s
  | .csrRdStripCount => Sys2Proof.Machine.execCsrRdStripCount s
  | .csrWrStripCount d => Sys2Proof.Machine.execCsrWrStripCount d s
  | .csrRdBrightness => Sys2Proof.Machine.execCsrRdBrightness s
  | .csrWrBrightness d => Sys2Proof.Machine.execCsrWrBrightness d s
  | .csrRdMatrixWidth => Sys2Proof.Machine.execCsrRdMatrixWidth s
  | .csrWrMatrixWidth d => Sys2Proof.Machine.execCsrWrMatrixWidth d s
  | .csrRdMatrixHeight => Sys2Proof.Machine.execCsrRdMatrixHeight s
  | .csrWrMatrixHeight d => Sys2Proof.Machine.execCsrWrMatrixHeight d s
  | .csrRdLastDrop => Sys2Proof.Machine.execCsrRdLastDrop s
  | .csrWrLastDrop d => Sys2Proof.Machine.execCsrWrLastDrop d s
  | .csrRdRsvdD => Sys2Proof.Machine.execCsrRdRsvdD s
  | .csrWrRsvdD d => Sys2Proof.Machine.execCsrWrRsvdD d s
  | .csrRdRsvdE => Sys2Proof.Machine.execCsrRdRsvdE s
  | .csrWrRsvdE d => Sys2Proof.Machine.execCsrWrRsvdE d s
  | .csrRdRsvdF => Sys2Proof.Machine.execCsrRdRsvdF s
  | .csrWrRsvdF d => Sys2Proof.Machine.execCsrWrRsvdF d s
  | .csrIdle => Sys2Proof.Machine.execCsrIdle s
  | .scale v => Sys2Proof.Machine.execScale v s
  | .reset => Sys2Proof.Machine.execReset s
  | .cmdNop => Sys2Proof.Machine.execCmdNop s
  | .cmdReset => Sys2Proof.Machine.execCmdReset s
  | .cmdAck => Sys2Proof.Machine.execCmdAck s
  | .cmdNak => Sys2Proof.Machine.execCmdNak s
  | .cmdHello => Sys2Proof.Machine.execCmdHello s
  | .cmdShow => Sys2Proof.Machine.execCmdShow s
  | .cmdGetInfo => Sys2Proof.Machine.execCmdGetInfo s
  | .cmdGetPixels => Sys2Proof.Machine.execCmdGetPixels s
  | .cmdGetControl => Sys2Proof.Machine.execCmdGetControl s
  | .cmdInfoResponse => Sys2Proof.Machine.execCmdInfoResponse s
  | .cmdPixelResponse => Sys2Proof.Machine.execCmdPixelResponse s
  | .cmdControlResponse => Sys2Proof.Machine.execCmdControlResponse s
  | .cmdPixelSetAll => Sys2Proof.Machine.execCmdPixelSetAll s
  | .cmdPixelSetRange => Sys2Proof.Machine.execCmdPixelSetRange s
  | .cmdPixelFrame => Sys2Proof.Machine.execCmdPixelFrame s
  | .cmdSetControl => Sys2Proof.Machine.execCmdSetControl s
  | .cmdStatusUpdate => Sys2Proof.Machine.execCmdStatusUpdate s
  | .cmdFrameAck => Sys2Proof.Machine.execCmdFrameAck s
  | .cmdInputEvent => Sys2Proof.Machine.execCmdInputEvent s

end Sys2Proof.Machine
end

