-- ==== Sys2Proof/Machine/Ports.lean ====
section
/-! DEFINITION. The ports: which transfers fire in a cycle (R15), the outputs as functions of the pre-state and the
inputs (R56 to R64, R144), and the selector words a cycle presents to the decoder (R99 to R104, R112, R141, R193,
R221), in the order in which the step runs their operations (log 9). -/

namespace Sys2Proof.Machine

/-! ## Transfers -/

/-- `fire(rx)` (R111). -/
def fireRx (s : State) (i : Inputs) : Bool := i.rxValid && !s.rx.pending

/-- `tx_req_ready`, outside reset (R58). -/
def txIsIdle (s : State) : Bool := decide (s.tx.state = .idle)

/-- `fire(tx_req)` (R141). -/
def fireTxReq (s : State) (i : Inputs) : Bool := i.txReqValid && txIsIdle s

/-- `tx_valid`, outside reset (R144). -/
def txOffers (s : State) (i : Inputs) : Bool :=
  match s.tx.state with
  | .idle => false
  | .payload => i.txPlValid
  | _ => true

/-- `tx_data` (R144). -/
def txByteOffered (s : State) (i : Inputs) : Byte :=
  match s.tx.state with
  | .idle => 0
  | .start => Config.startByte
  | .flags => s.tx.flags
  | .lenLo => lowHalf s.tx.len
  | .lenHi => highHalf s.tx.len
  | .cmd => s.tx.cmd
  | .payload => i.txPlData
  | .chk => s.tx.acc

/-- `fire(tx)` (R141). -/
def fireTx (s : State) (i : Inputs) : Bool := txOffers s i && i.txReady

/-- `tx_pl_ready`, outside reset (R58, R144). -/
def txPlReady (s : State) (i : Inputs) : Bool := decide (s.tx.state = .payload) && i.txReady

/-- `fire(map_req)` (R193). -/
def fireMapReq (s : State) (i : Inputs) : Bool := i.mapReqValid && !s.map.valid

/-- A response beat is transferred (R193). -/
def fireMapRsp (s : State) (i : Inputs) : Bool := s.map.valid && i.mapRspReady

/-- `clr` of R265: the `EVENT` bits a register write clears. -/
def eventClear (i : Inputs) : BitVec 5 :=
  if i.csrValid && i.csrWe && decide (i.csrAddr = 3) then i.csrWdata.setWidth 5 else 0

/-! ## Outputs -/

/-- Every output port in a cycle (R56 to R64, R144, R221, R266, R281). -/
def outputs (s : State) (i : Inputs) : Outputs :=
  { rxReady := !i.rst && !s.rx.pending
    txValid := !i.rst && txOffers s i
    txData := txByteOffered s i
    txReqReady := !i.rst && txIsIdle s
    txPlReady := !i.rst && txPlReady s i
    pktValid := s.rx.pending
    pktFlags := s.rx.flags
    pktLen := s.rx.len
    pktCmd := s.rx.cmd
    pktChk := s.rx.chk
    plRdData := s.rx.plRdQ
    mapReqReady := !i.rst && !s.map.valid
    mapRspValid := s.map.valid
    mapRspAddr := s.map.addr
    mapRspStrip := s.map.strip
    mapRspPos := s.map.pos
    mapRspLast := s.map.last
    mapRspErr := s.map.err
    scaleOut := scaleValue i.scaleIn s.csr.brightness
    csrRdata := if !i.rst && i.csrValid && !i.csrWe then readRegister s i.csrAddr else 0
    irq := !i.rst && irqLevel s }

/-! ## The selector words of a cycle -/

/-- The scaler works in every cycle (R104, R206). -/
def scaleWords (i : Inputs) : List OpWord :=
  [{ port := .scale, word := 0, cond := false, operand := i.scaleIn.setWidth 32 }]

/-- Whether a cycle writes a configuration register: every write but that of `EVENT`. -/
def writesConfig (i : Inputs) : Bool := i.csrValid && i.csrWe && decide (i.csrAddr ≠ 3)

/-- The register access of the cycle (R103, R221), or none (R250). -/
def csrWordOf (i : Inputs) : OpWord :=
  if i.csrValid then csrWord i.csrWe i.csrAddr i.csrWdata
  else { port := .csrIdle, word := 0, cond := false, operand := 0 }

/-- A register read, the write of `EVENT`, or no access: run before the units, so that a read sees the pre-state (R80)
and a bit a unit raises wins over its clear (R265). -/
def csrEarlyWords (i : Inputs) : List OpWord := if writesConfig i then [] else [csrWordOf i]

/-- A write of any other register: run after the units, which use the old value (R285). -/
def csrLateWords (i : Inputs) : List OpWord := if writesConfig i then [csrWordOf i] else []

/-- The payload read (R112 part 3): before the framer stores a byte, so that it returns the old one (R80, R130). -/
def plRdWords (i : Inputs) : List OpWord :=
  if i.plRdEn then [{ signalWord .plRd with operand := i.plRdAddr.setWidth 32 }] else []

/-- The acknowledge (R112 part 2): it acts only on a packet pending in the pre-state. -/
def ackWords (s : State) (i : Inputs) : List OpWord :=
  if s.rx.pending && i.pktAck then [signalWord .pktAck] else []

/-- The byte, which has priority, or the tick (R112 part 1). -/
def rxWords (s : State) (i : Inputs) : List OpWord :=
  if fireRx s i then [rxWord (rxStateBits s.rx.state) i.rxData (rxCondition s i.rxData)]
  else if i.tick then [signalWord .tick]
  else []

/-- The request or the byte of the encoder (R141). -/
def txWords (s : State) (i : Inputs) : List OpWord :=
  if fireTxReq s i then
    [{ signalWord .txReq with
        cond := !exceedsMax s i.txReqLen
        operand := txReqOperand i.txReqFlags i.txReqCmd i.txReqLen }]
  else if fireTx s i then [txWord (txStateBits s.tx.state) i.txPlData]
  else []

/-- The request or the beat of the mapper (R193). -/
def mapWords (s : State) (i : Inputs) : List OpWord :=
  if fireMapReq s i then
    [mapWord .mapReq (mapModeBits s.csr.mode) i.mapReqStrip i.mapReqIndex (cfgValid s)]
  else if fireMapRsp s i then [signalWord .mapRsp]
  else []

/-- The selector words of a cycle: in a cycle with `rst = 1`, the reset and no transfer (R21, R281). -/
def opWords (s : State) (i : Inputs) : List OpWord :=
  if i.rst then scaleWords i ++ [signalWord .rst]
  else
    scaleWords i ++ (csrEarlyWords i ++ (plRdWords i ++ (ackWords s i ++ (rxWords s i ++ (txWords s i ++
      (mapWords s i ++ csrLateWords i))))))

end Sys2Proof.Machine
end

