-- ==== Sys2Proof/Machine/Cycle.lean ====
section
/-! DEFINITION. One clock cycle: the duties of the environment (R11), the bookkeeping of its offers, and the running of
the operations a cycle selects. -/

namespace Sys2Proof.Machine

/-- The inputs of the coming cycle; none listed is a cycle with no port activity (R10, log 1). -/
def currentInputs (s : State) : Inputs :=
  match s.env with
  | [] => {}
  | i :: _ => i

/-! ## Duties of the environment (R11) -/

/-- An offer made before is still made, unchanged (R11 (1)). -/
def keepsOffer {α : Type} [DecidableEq α] (held : Option α) (valid : Bool) (now : α) : Bool :=
  match held with
  | none => true
  | some x => valid && decide (now = x)

/-- Every source holds its offer until it is taken (R11 (1)). -/
def offersKept (s : State) (i : Inputs) : Bool :=
  keepsOffer s.held.rx i.rxValid i.rxData
    && keepsOffer s.held.txReq i.txReqValid (i.txReqFlags, i.txReqCmd, i.txReqLen)
    && keepsOffer s.held.txPl i.txPlValid i.txPlData
    && keepsOffer s.held.mapReq i.mapReqValid (i.mapReqStrip, i.mapReqIndex)

/-- Whether the transmit client may offer a payload byte (R11 (3), R291; log 5): one that the packet being sent owes, or the
request accepted in this very cycle; or the offer that R11 (1) makes it continue, which a reset has left without its packet
(log 6), as long as no request comes that would take it as its own first byte or be refused beside it. -/
def payloadOwed (s : State) (i : Inputs) : Bool :=
  match s.tx.state with
  | .idle =>
    if s.held.txPl.isSome then i.rst || !(i.txReqValid && decide (i.txReqLen ≠ 0))
    else !i.rst && i.txReqValid && decide (i.txReqLen ≠ 0) && !exceedsMax s i.txReqLen
  | .payload => true
  | .chk => s.held.txPl.isSome
  | _ => decide (s.tx.len ≠ 0) || s.held.txPl.isSome

/-- The refusal of a cycle that breaks a duty, if it breaks one; R11 binds in a cycle with `rst = 1` as in any other
(log 6). -/
def dutyBroken (s : State) (i : Inputs) : Option Refusal :=
  if !offersKept s i then some .offerWithdrawn
  else if i.txPlValid && !payloadOwed s i then some .payloadNotOwed
  else none

/-- What a source goes on offering: its offer when the block did not take it. -/
def offerLeft {α : Type} (valid ready : Bool) (now : α) : Option α := if valid && !ready then some now else none

/-- The offers left after a cycle: those whose `*_ready` output is 0, which in a cycle with `rst = 1` is every one of them
(R11 (1), R281; log 4, 6). -/
def heldAfter (s : State) (i : Inputs) : Held :=
  let o := outputs s i
  { rx := offerLeft i.rxValid o.rxReady i.rxData
    txReq := offerLeft i.txReqValid o.txReqReady (i.txReqFlags, i.txReqCmd, i.txReqLen)
    txPl := offerLeft i.txPlValid o.txPlReady i.txPlData
    mapReq := offerLeft i.mapReqValid o.mapReqReady (i.mapReqStrip, i.mapReqIndex) }

/-! ## Running a cycle -/

/-- The state in which a cycle's operations run: the block's elements as they are, the outputs of the cycle on the
ports, its inputs consumed. -/
def beginCycle (s : State) (i : Inputs) : State :=
  { s with out := outputs s i, env := s.env.tail, held := heldAfter s i }

/-- The operations of a cycle, one after another, until one stops. -/
def runOps : List Instr → State → Result
  | [], s => .next s
  | i :: is, s =>
    match exec i s with
    | .next s' => runOps is s'
    | .fault f => .fault f
    | .refused r => .refused r

/-- The operations that selector words decode to, run; a word that decodes to none is refused. -/
def runWords (ws : List OpWord) (s : State) : Result :=
  match decodeAll ws with
  | .ok is => runOps is s
  | .error e => .refused (.undecodable e)

/-- One clock cycle with the inputs `i`. -/
def cycle (s : State) (i : Inputs) : Result :=
  match dutyBroken s i with
  | some r => .refused r
  | none => runWords (opWords s i) (beginCycle s i)

end Sys2Proof.Machine
end

