-- ==== Sys2Proof/Machine/Present.lean ====
section
/-! DEFINITION. Placing an operation where the step takes its next one: the port inputs, and the state bits that are part
of the selector word (`rx_state`, `tx_state`, `MAP_MODE`), that make the next cycle select it (log 1, 13). -/

namespace Sys2Proof.Machine

/-- The state whose next cycle has these inputs. -/
def offerInputs (s : State) (i : Inputs) : State := { s with env := [i], held := Held.none }

/-- A byte offered to the framer in a receive state, no packet pending (R99). -/
def offerByte (r : RxState) (b : Byte) (s : State) : State :=
  offerInputs (s.setRx { s.rx with state := r, pending := false }) { rxValid := true, rxData := b }

/-- The sink ready for the byte of a transmit state (R101). -/
def offerSink (t : TxState) (i : Inputs) (s : State) : State :=
  offerInputs (s.setTx { s.tx with state := t }) { i with txReady := true }

/-- A map request in a mode, no beat presented (R102). -/
def offerMapRequest (m : MapMode) (strip : Byte) (l : Half) (s : State) : State :=
  offerInputs ((s.setCsr { s.csr with mode := m }).setMap { s.map with valid := false })
    { mapReqValid := true, mapReqStrip := strip, mapReqIndex := l }

/-- A register access (R103). -/
def offerAccess (we : Bool) (addr : BitVec 4) (d : Half) (s : State) : State :=
  offerInputs s { csrValid := true, csrWe := we, csrAddr := addr, csrWdata := d }

/-- The inputs and the selector bits that make the next cycle select an operation, with the pending packet or the beat an
acknowledge or a taken beat needs; an operation's conditions on the rest of the state are left as they are (log 18). -/
def present (i : Instr) (s : State) : State :=
  match i with
  | .rxWsStart => offerByte .waitStart Config.startByte s
  | .rxWsSkip b => offerByte .waitStart b s
  | .rxFlags b => offerByte .readFlags b s
  | .rxLenLo b => offerByte .readLengthLow b s
  | .rxLenHiOversize b => offerByte .readLengthHigh b s
  | .rxLenHi b => offerByte .readLengthHigh b s
  | .rxCmdEmpty b => offerByte .readCommand b s
  | .rxCmd b => offerByte .readCommand b s
  | .rxPayloadLast b => offerByte .readPayload b s
  | .rxPayload b => offerByte .readPayload b s
  | .rxChkOk b => offerByte .readChecksum b s
  | .rxChkBad b => offerByte .readChecksum b s
  | .rxState7 b => offerByte .unused7 b s
  | .rxTick => offerInputs s { tick := true }
  | .rxTimeout => offerInputs s { tick := true }
  | .pktAck => offerInputs (s.setRx { s.rx with pending := true }) { pktAck := true }
  | .plRd a => offerInputs s { plRdEn := true, plRdAddr := a }
  | .txReq f c n =>
    offerInputs (s.setTx { s.tx with state := .idle })
      { txReqValid := true, txReqFlags := f, txReqCmd := c, txReqLen := n }
  | .txReqRefuse n =>
    offerInputs (s.setTx { s.tx with state := .idle }) { txReqValid := true, txReqLen := n }
  | .txEmitStart => offerSink .start {} s
  | .txEmitFlags => offerSink .flags {} s
  | .txEmitLenLo => offerSink .lenLo {} s
  | .txEmitLenHi => offerSink .lenHi {} s
  | .txEmitCmd => offerSink .cmd {} s
  | .txEmitPayload p => offerSink .payload { txPlValid := true, txPlData := p } s
  | .txEmitChk => offerSink .chk {} s
  | .mapAccept strip l => offerMapRequest s.csr.mode strip l s
  | .mapCfgErr strip l => offerMapRequest s.csr.mode strip l s
  | .mapStripBcast l => offerMapRequest .strip Config.broadcastStrip l s
  | .mapStrip strip l => offerMapRequest .strip strip l s
  | .mapFlat strip l => offerMapRequest .flat strip l s
  | .mapFold strip l => offerMapRequest .folded strip l s
  | .mapRsvd strip l => offerMapRequest .reserved strip l s
  | .mapBeat => offerInputs (s.setMap { s.map with valid := true }) { mapRspReady := true }
  | .mapBcastNext => offerInputs (s.setMap { s.map with valid := true, last := false }) { mapRspReady := true }
  | .csrRdCtrl => offerAccess false 0 0 s
  | .csrWrCtrl d => offerAccess true 0 d s
  | .csrRdMaxPayload => offerAccess false 1 0 s
  | .csrWrMaxPayload d => offerAccess true 1 d s
  | .csrRdChkerrCnt => offerAccess false 2 0 s
  | .csrWrChkerrCnt d => offerAccess true 2 d s
  | .csrRdEvent => offerAccess false 3 0 s
  | .csrWrEvent d => offerAccess true 3 d s
  | .csrRdIrqEn => offerAccess false 4 0 s
  | .csrWrIrqEn d => offerAccess true 4 d s
  | .csrRdStatus => offerAccess false 5 0 s
  | .csrWrStatus d => offerAccess true 5 d s
  | .csrRdMapMode => offerAccess false 6 0 s
  | .csrWrMapMode d => offerAccess true 6 d s
  | .csrRdPhysWidth => offerAccess false 7 0 s
  | .csrWrPhysWidth d => offerAccess true 7 d s
  | .csrRdStripCount => offerAccess false 8 0 s
  | .csrWrStripCount d => offerAccess true 8 d s
  | .csrRdBrightness => offerAccess false 9 0 s
  | .csrWrBrightness d => offerAccess true 9 d s
  | .csrRdMatrixWidth => offerAccess false 10 0 s
  | .csrWrMatrixWidth d => offerAccess true 10 d s
  | .csrRdMatrixHeight => offerAccess false 11 0 s
  | .csrWrMatrixHeight d => offerAccess true 11 d s
  | .csrRdLastDrop => offerAccess false 12 0 s
  | .csrWrLastDrop d => offerAccess true 12 d s
  | .csrRdRsvdD => offerAccess false 13 0 s
  | .csrWrRsvdD d => offerAccess true 13 d s
  | .csrRdRsvdE => offerAccess false 14 0 s
  | .csrWrRsvdE d => offerAccess true 14 d s
  | .csrRdRsvdF => offerAccess false 15 0 s
  | .csrWrRsvdF d => offerAccess true 15 d s
  | .csrIdle => offerInputs s {}
  | .scale v => offerInputs s { scaleIn := v }
  | .reset => offerInputs s { rst := true }
  | .cmdNop => offerByte .readCommand Config.cmdNop s
  | .cmdReset => offerByte .readCommand Config.cmdReset s
  | .cmdAck => offerByte .readCommand Config.cmdAck s
  | .cmdNak => offerByte .readCommand Config.cmdNak s
  | .cmdHello => offerByte .readCommand Config.cmdHello s
  | .cmdShow => offerByte .readCommand Config.cmdShow s
  | .cmdGetInfo => offerByte .readCommand Config.cmdGetInfo s
  | .cmdGetPixels => offerByte .readCommand Config.cmdGetPixels s
  | .cmdGetControl => offerByte .readCommand Config.cmdGetControl s
  | .cmdInfoResponse => offerByte .readCommand Config.cmdInfoResponse s
  | .cmdPixelResponse => offerByte .readCommand Config.cmdPixelResponse s
  | .cmdControlResponse => offerByte .readCommand Config.cmdControlResponse s
  | .cmdPixelSetAll => offerByte .readCommand Config.cmdPixelSetAll s
  | .cmdPixelSetRange => offerByte .readCommand Config.cmdPixelSetRange s
  | .cmdPixelFrame => offerByte .readCommand Config.cmdPixelFrame s
  | .cmdSetControl => offerByte .readCommand Config.cmdSetControl s
  | .cmdStatusUpdate => offerByte .readCommand Config.cmdStatusUpdate s
  | .cmdFrameAck => offerByte .readCommand Config.cmdFrameAck s
  | .cmdInputEvent => offerByte .readCommand Config.cmdInputEvent s

end Sys2Proof.Machine
end

