-- ==== Sys2Proof/Machine/Step.lean ====
section
/-! DEFINITION. One step of the machine is one rising edge of `clk` (R10, R21): the cycle with the inputs at the head of
`env`. -/

namespace Sys2Proof.Machine

/-- One clock cycle (R10, R21). -/
def step (s : State) : Host.Outcome State Fault Refusal := cycle s (currentInputs s)

/-- The operation a bare selector word is read as, placed where the next step takes its operation (log 1, 13); a word
that is read as none changes nothing. -/
def State.withFetchWord (s : State) (nbits w : Nat) : State :=
  match Sys2Proof.decodeTableWord nbits w with
  | some i => present i s
  | none => s

end Sys2Proof.Machine
end

