-- ==== Sys2Proof/Machine/Lockstep.lean ====
section
/-! DEFINITION. The same clock cycle read the other way round: not operation by operation but REGISTER BY REGISTER, each
register's next value a function of the pre-state `S` and the inputs alone (R21, R80), and `EVENT` by its merge (R265).
The step does not use it: that the two agree is a statement (log 9). -/

namespace Sys2Proof.Machine

/-! ## Receive framer (R112 to R130) -/

/-- The byte accepted in this cycle ends a packet whose checksum fails (R126). -/
def checksumFails (s : State) (i : Inputs) : Bool :=
  fireRx s i && decide (s.rx.state = .readChecksum) && decide (i.rxData ≠ s.rx.acc)

/-- The byte accepted in this cycle ends a packet whose checksum holds (R125). -/
def checksumHolds (s : State) (i : Inputs) : Bool :=
  fireRx s i && decide (s.rx.state = .readChecksum) && decide (i.rxData = s.rx.acc)

/-- The byte accepted in this cycle declares a length over the maximum (R120). -/
def oversize (s : State) (i : Inputs) : Bool :=
  fireRx s i && decide (s.rx.state = .readLengthHigh) && exceedsMax s (declaredLength s i.rxData)

/-- A tick of this cycle discards the partial packet (R113, R114). -/
def timesOut (s : State) (i : Inputs) : Bool :=
  !fireRx s i && i.tick && timeoutRuns s.rx.state && decide (s.cfg.timeoutTicks < s.rx.idle + 1)

/-- A payload byte is accepted in this cycle (R123, R124). -/
def takesPayload (s : State) (i : Inputs) : Bool := fireRx s i && decide (s.rx.state = .readPayload)

/-- A start byte opens a packet in this cycle (R115, R127). -/
def opensPacket (s : State) (i : Inputs) : Bool :=
  fireRx s i && !timeoutRuns s.rx.state && decide (i.rxData = Config.startByte)

/-- `rx_state` after an accepted byte (R115 to R127). -/
def rxStateAfterByte (s : State) (b : Byte) : RxState :=
  match s.rx.state with
  | .waitStart => if b = Config.startByte then .readFlags else .waitStart
  | .readFlags => .readLengthLow
  | .readLengthLow => .readLengthHigh
  | .readLengthHigh => if exceedsMax s (declaredLength s b) then .waitStart else .readCommand
  | .readCommand => if s.rx.len = 0 then .readChecksum else .readPayload
  | .readPayload => if s.rx.idx.toNat + 1 = s.rx.len.toNat then .readChecksum else .readPayload
  | .readChecksum => .waitStart
  | .unused7 => if b = Config.startByte then .readFlags else .unused7

/-- Whether an accepted byte enters the running XOR (R117 to R124). -/
def entersXor (s : State) (b : Byte) : Bool :=
  match s.rx.state with
  | .readFlags => true
  | .readLengthLow => true
  | .readLengthHigh => !exceedsMax s (declaredLength s b)
  | .readCommand => true
  | .readPayload => true
  | _ => false

/-- The framer after the cycle. -/
def rxAfter (s : State) (i : Inputs) : RxUnit :=
  let fire := fireRx s i
  let b := i.rxData
  { state := if fire then rxStateAfterByte s b else if timesOut s i then .waitStart else s.rx.state
    acc :=
      if opensPacket s i then 0
      else if fire && entersXor s b then s.rx.acc ^^^ b
      else s.rx.acc
    flags := if fire && decide (s.rx.state = .readFlags) then b else s.rx.flags
    len :=
      if fire && decide (s.rx.state = .readLengthLow) then zext16 b
      else if fire && decide (s.rx.state = .readLengthHigh) then declaredLength s b
      else s.rx.len
    cmd := if fire && decide (s.rx.state = .readCommand) then b else s.rx.cmd
    chk := if checksumHolds s i then b else s.rx.chk
    idx :=
      if fire && decide (s.rx.state = .readCommand) && decide (s.rx.len ≠ 0) then 0
      else if takesPayload s i then s.rx.idx + 1
      else s.rx.idx
    idle :=
      if fire then 0
      else if i.tick then min (s.rx.idle + 1) (s.cfg.timeoutTicks + 1)
      else s.rx.idle
    pending := checksumHolds s i || (s.rx.pending && !i.pktAck)
    buf := if takesPayload s i then Memory.write s.rx.buf s.rx.idx.toNat b else s.rx.buf
    plRdQ := if i.plRdEn then readRxbuf s i.plRdAddr.toNat else s.rx.plRdQ
    chkErr := if checksumFails s i then s.rx.chkErr + 1 else s.rx.chkErr
    lastDrop :=
      if checksumFails s i then Config.errChecksum
      else if oversize s i then Config.errBufferOverflow
      else if timesOut s i then Config.errTimeout
      else s.rx.lastDrop }

/-! ## Transmit encoder (R141 to R152) -/

/-- A request is accepted and not refused (R142). -/
def acceptsRequest (s : State) (i : Inputs) : Bool := fireTxReq s i && !exceedsMax s i.txReqLen

/-- A request is refused (R143). -/
def refusesRequest (s : State) (i : Inputs) : Bool := fireTxReq s i && exceedsMax s i.txReqLen

/-- `tx_state` after a byte is taken (R146 to R152). -/
def txStateAfterByte (s : State) : TxState :=
  match s.tx.state with
  | .idle => .idle
  | .start => .flags
  | .flags => .lenLo
  | .lenLo => .lenHi
  | .lenHi => .cmd
  | .cmd => if s.tx.len = 0 then .chk else .payload
  | .payload => if s.tx.cnt.toNat + 1 = s.tx.len.toNat then .chk else .payload
  | .chk => .idle

/-- Whether the byte a transmit state offers enters the running XOR (R146 to R152). -/
def txEntersXor (t : TxState) : Bool :=
  match t with
  | .idle => false
  | .start => false
  | .chk => false
  | _ => true

/-- The encoder after the cycle. -/
def txAfter (s : State) (i : Inputs) : TxUnit :=
  if acceptsRequest s i then
    { state := .start, flags := sentFlags s i.txReqFlags, len := i.txReqLen, cmd := i.txReqCmd, cnt := 0, acc := 0 }
  else if fireTx s i then
    { s.tx with
      state := txStateAfterByte s
      cnt :=
        if s.tx.state = .payload then s.tx.cnt + 1
        else if s.tx.state = .cmd ∧ s.tx.len ≠ 0 then 0
        else s.tx.cnt
      acc := if txEntersXor s.tx.state then s.tx.acc ^^^ txByteOffered s i else s.tx.acc }
  else s.tx

/-! ## Pixel address mapper (R191 to R203): the map as a function of the geometry -/

/-- A response beat (R193). -/
structure Beat where
  /-- The physical strip. -/
  strip : Nat
  /-- The position within the strip. -/
  pos : Nat
  /-- The flat physical index. -/
  addr : Nat
  /-- The last beat of its request. -/
  last : Bool
  /-- 0x00, or the error code. -/
  err : Byte
  deriving DecidableEq, Repr

/-- The beat of an error (R203). -/
def Beat.error (code : Byte) : Beat := { strip := 0, pos := 0, addr := 0, last := true, err := code }

/-- The beat of a pixel on a strip of `w` pixels. -/
def Beat.pixel (w strip pos : Nat) : Beat :=
  { strip := strip, pos := pos, addr := strip * w + pos, last := true, err := Config.errOk }

/-- The strip and the position of a logical index in folded mode (R200). -/
def foldPixel (w l : Nat) : Nat × Nat := (l / (w / 2) / 2, foldPosition w (l / (w / 2)) (l % (w / 2)))

/-- The first beat of a request under a geometry (R192, R195 to R201). -/
def mapBeatOf (mode : MapMode) (w n : Nat) (strip : Byte) (l : Nat) : Beat :=
  if geometryValid mode w n then
    match mode with
    | .strip =>
      if strip = Config.broadcastStrip then
        if l < w then { Beat.pixel w 0 l with last := decide (n = 1) } else Beat.error Config.errInvalidParam
      else if strip.toNat < n ∧ l < w then Beat.pixel w strip.toNat l
      else Beat.error Config.errInvalidParam
    | .flat => if l < w * n then Beat.pixel w (l / w) (l % w) else Beat.error Config.errInvalidParam
    | .folded =>
      if l < w * n then Beat.pixel w (foldPixel w l).1 (foldPixel w l).2 else Beat.error Config.errInvalidParam
    | .reserved => Beat.error Config.errConfig
  else Beat.error Config.errConfig

/-- The first beat of the request of a cycle. -/
def requestedBeat (s : State) (i : Inputs) : Beat :=
  mapBeatOf s.csr.mode (widthOf s) (stripsOf s) i.mapReqStrip i.mapReqIndex.toNat

/-- The beat registers holding a beat, each value modulo its width (R12). -/
def MapUnit.load (m : MapUnit) (b : Beat) : MapUnit :=
  { m with
    valid := true
    strip := BitVec.ofNat 4 b.strip
    pos := BitVec.ofNat 16 b.pos
    addr := BitVec.ofNat 16 b.addr
    last := b.last
    err := b.err }

/-- The continuation beat of a broadcast (R198). -/
def continuationBeat (m : MapUnit) : Beat :=
  { strip := m.strip.toNat + 1
    pos := m.pos.toNat
    addr := m.addr.toNat + m.w.toNat
    last := decide (m.strip.toNat + 2 = m.n.toNat)
    err := Config.errOk }

/-- The mapper after the cycle. -/
def mapAfter (s : State) (i : Inputs) : MapUnit :=
  if fireMapReq s i then
    MapUnit.load { s.map with w := s.csr.physWidth, n := s.csr.stripCount } (requestedBeat s i)
  else if fireMapRsp s i then
    if s.map.last then { s.map with valid := false } else s.map.load (continuationBeat s.map)
  else s.map

/-- The request of this cycle gives an error beat (R203). -/
def mapFails (s : State) (i : Inputs) : Bool := fireMapReq s i && decide ((requestedBeat s i).err ≠ Config.errOk)

/-! ## Registers (R221 to R250) -/

/-- A register write to an address happens in this cycle (R221). -/
def writesTo (i : Inputs) (addr : BitVec 4) : Bool := i.csrValid && i.csrWe && decide (i.csrAddr = addr)

/-- The configuration registers after the cycle. -/
def csrAfter (s : State) (i : Inputs) : CsrUnit :=
  { txResp := if writesTo i 0 then i.csrWdata.getLsbD 0 else s.csr.txResp
    maxPayload :=
      if writesTo i 1 then BitVec.ofNat 11 (min i.csrWdata.toNat s.cfg.rxbufCap) else s.csr.maxPayload
    irqEn := if writesTo i 4 then i.csrWdata.setWidth 6 else s.csr.irqEn
    mode := if writesTo i 6 then mapModeOfBits (i.csrWdata.setWidth 2) else s.csr.mode
    physWidth := if writesTo i 7 then i.csrWdata else s.csr.physWidth
    stripCount := if writesTo i 8 then i.csrWdata.setWidth 5 else s.csr.stripCount
    brightness := if writesTo i 9 then i.csrWdata.setWidth 8 else s.csr.brightness }

/-! ## EVENT (R264, R265) -/

/-- The bits a condition sets. -/
def bitIf (c : Bool) (b : BitVec 5) : BitVec 5 := if c then b else 0

/-- `set` of R265: the bits raised in this cycle, by the cause table of R264. -/
def eventSet (s : State) (i : Inputs) : BitVec 5 :=
  bitIf (checksumFails s i) eventChk ||| bitIf (oversize s i) eventOvs ||| bitIf (timesOut s i) eventTmo |||
    bitIf (refusesRequest s i) eventTxErr ||| bitIf (mapFails s i) eventMapErr

/-! ## The whole block -/

/-- The state after a cycle with `rst = 0` (R21). -/
def ordinaryAfter (s : State) (i : Inputs) : State :=
  { cfg := s.cfg
    rx := rxAfter s i
    tx := txAfter s i
    map := mapAfter s i
    csr := csrAfter s i
    event := mergeEvent s.event (eventClear i) (eventSet s i)
    out := outputs s i
    env := s.env.tail
    held := heldAfter s i }

/-- The state after a cycle with `rst = 1` (R65, R281). -/
def resetAfter (s : State) (i : Inputs) : State :=
  { cfg := s.cfg
    rx := { RxUnit.reset with buf := s.rx.buf }
    tx := TxUnit.reset
    map := MapUnit.reset
    csr := CsrUnit.reset s.cfg
    event := 0
    out := outputs s i
    env := s.env.tail
    held := heldAfter s i }

/-- The state after a cycle, register by register. -/
def lockstep (s : State) (i : Inputs) : State := if i.rst then resetAfter s i else ordinaryAfter s i

end Sys2Proof.Machine
end

