-- ==== Sys2Proof/Safety.lean ====
section
/-! DEFINITION. The terms the statements use: what holds in every state a run reaches (R131 and the rules beside it),
what a delivered packet holds (R128), what stays unchanged, and the streams of bytes a run takes in and sends out. -/

namespace Sys2Proof.Machine

/-! ## Outcomes -/

/-- The next state of an outcome, if it has one. -/
def nextState? (r : Result) : Option State :=
  match r with
  | .next s => some s
  | _ => none

/-! ## Frames -/

/-- Nothing outside the framer's registers changed. -/
def OutsideRxKept (s t : State) : Prop :=
  t.cfg = s.cfg ∧ t.tx = s.tx ∧ t.map = s.map ∧ t.csr = s.csr ∧ t.event = s.event ∧ t.out = s.out ∧ t.env = s.env ∧
    t.held = s.held

/-- Nothing outside the framer's registers and `EVENT` changed. -/
def OutsideRxEventKept (s t : State) : Prop :=
  t.cfg = s.cfg ∧ t.tx = s.tx ∧ t.map = s.map ∧ t.csr = s.csr ∧ t.out = s.out ∧ t.env = s.env ∧ t.held = s.held

/-- Every byte of `RXBUF` reads as before. -/
def RxbufKept (s t : State) : Prop := ∀ a, Memory.read t.rx.buf a = Memory.read s.rx.buf a

/-- Every byte of `RXBUF` but one reads as before. -/
def RxbufKeptBut (a : Nat) (s t : State) : Prop :=
  ∀ k, k ≠ a → Memory.read t.rx.buf k = Memory.read s.rx.buf k

/-- Nothing outside the encoder's registers and the two outputs of the byte sink changed. -/
def OutsideTxKept (s t : State) : Prop :=
  t.cfg = s.cfg ∧ t.rx = s.rx ∧ t.map = s.map ∧ t.csr = s.csr ∧ t.event = s.event ∧ t.env = s.env ∧ t.held = s.held ∧
    t.out = { s.out with txValid := t.out.txValid, txData := t.out.txData }

/-- Nothing outside the mapper's registers and `EVENT` changed. -/
def OutsideMapKept (s t : State) : Prop :=
  t.cfg = s.cfg ∧ t.rx = s.rx ∧ t.tx = s.tx ∧ t.csr = s.csr ∧ t.out = s.out ∧ t.env = s.env ∧ t.held = s.held

/-- Nothing but the read data changed. -/
def OnlyReadData (v : Half) (s t : State) : Prop :=
  t = { s with out := { s.out with csrRdata := v } } ∧ RxbufKept s t

/-- Nothing but the configuration registers changed, and the read data is 0 (R221). -/
def OnlyConfig (c : CsrUnit) (s t : State) : Prop :=
  t = { s with csr := c, out := { s.out with csrRdata := 0 } } ∧ RxbufKept s t

/-- The beat registers present a beat, each value exactly (R39, R193); the latches of the geometry are `w` and `n`. -/
def Presents (m : MapUnit) (w : Half) (n : BitVec 5) (b : Beat) : Prop :=
  m.valid = true ∧ m.strip.toNat = b.strip ∧ m.pos.toNat = b.pos ∧ m.addr.toNat = b.addr ∧ m.last = b.last ∧
    m.err = b.err ∧ m.w = w ∧ m.n = n

/-! ## Which operation writes what -/

/-- What an operation can write: the elements of R23, and the output ports it drives. -/
inductive Element where
  | rxState
  | rxAcc
  | rxFlags
  | rxLen
  | rxCmd
  | rxChk
  | rxIdx
  | idleCnt
  | pktPending
  | rxbuf
  | plRdQ
  | chkErrCnt
  | lastDrop
  | txState
  | txFlags
  | txLen
  | txCmd
  | txCnt
  | txAcc
  | mW
  | mN
  | rspValid
  | rspAddr
  | rspStrip
  | rspPos
  | rspLast
  | rspErr
  | ctrl
  | maxPayload
  | irqEn
  | mapMode
  | physWidth
  | stripCount
  | brightness
  | event
  /-- `tx_valid`. -/
  | txValidPort
  /-- `tx_data`. -/
  | txDataPort
  /-- `scale_out`. -/
  | scalePort
  /-- `csr_rdata`. -/
  | rdataPort
  /-- The four `*_ready` outputs and `irq`. -/
  | readyPorts
  /-- Every other output. -/
  | otherPorts
  deriving DecidableEq, Repr

/-- The element is the same in both states. -/
def Element.kept (e : Element) (s t : State) : Prop :=
  match e with
  | .rxState => t.rx.state = s.rx.state
  | .rxAcc => t.rx.acc = s.rx.acc
  | .rxFlags => t.rx.flags = s.rx.flags
  | .rxLen => t.rx.len = s.rx.len
  | .rxCmd => t.rx.cmd = s.rx.cmd
  | .rxChk => t.rx.chk = s.rx.chk
  | .rxIdx => t.rx.idx = s.rx.idx
  | .idleCnt => t.rx.idle = s.rx.idle
  | .pktPending => t.rx.pending = s.rx.pending
  | .rxbuf => RxbufKept s t
  | .plRdQ => t.rx.plRdQ = s.rx.plRdQ
  | .chkErrCnt => t.rx.chkErr = s.rx.chkErr
  | .lastDrop => t.rx.lastDrop = s.rx.lastDrop
  | .txState => t.tx.state = s.tx.state
  | .txFlags => t.tx.flags = s.tx.flags
  | .txLen => t.tx.len = s.tx.len
  | .txCmd => t.tx.cmd = s.tx.cmd
  | .txCnt => t.tx.cnt = s.tx.cnt
  | .txAcc => t.tx.acc = s.tx.acc
  | .mW => t.map.w = s.map.w
  | .mN => t.map.n = s.map.n
  | .rspValid => t.map.valid = s.map.valid
  | .rspAddr => t.map.addr = s.map.addr
  | .rspStrip => t.map.strip = s.map.strip
  | .rspPos => t.map.pos = s.map.pos
  | .rspLast => t.map.last = s.map.last
  | .rspErr => t.map.err = s.map.err
  | .ctrl => t.csr.txResp = s.csr.txResp
  | .maxPayload => t.csr.maxPayload = s.csr.maxPayload
  | .irqEn => t.csr.irqEn = s.csr.irqEn
  | .mapMode => t.csr.mode = s.csr.mode
  | .physWidth => t.csr.physWidth = s.csr.physWidth
  | .stripCount => t.csr.stripCount = s.csr.stripCount
  | .brightness => t.csr.brightness = s.csr.brightness
  | .event => t.event = s.event
  | .txValidPort => t.out.txValid = s.out.txValid
  | .txDataPort => t.out.txData = s.out.txData
  | .scalePort => t.out.scaleOut = s.out.scaleOut
  | .rdataPort => t.out.csrRdata = s.out.csrRdata
  | .readyPorts => t.out.rxReady = s.out.rxReady ∧ t.out.txReqReady = s.out.txReqReady ∧
      t.out.txPlReady = s.out.txPlReady ∧ t.out.mapReqReady = s.out.mapReqReady ∧ t.out.irq = s.out.irq
  | .otherPorts => t.out =
      { s.out with
        txValid := t.out.txValid, txData := t.out.txData, scaleOut := t.out.scaleOut, csrRdata := t.out.csrRdata,
        rxReady := t.out.rxReady, txReqReady := t.out.txReqReady, txPlReady := t.out.txPlReady,
        mapReqReady := t.out.mapReqReady, irq := t.out.irq }

/-- The beat registers (R39). -/
def beatElements : List Element := [.rspValid, .rspAddr, .rspStrip, .rspPos, .rspLast, .rspErr]

/-- What a receive drop writes (R262), with `rx_state` (R268). -/
def dropElements : List Element := [.rxState, .lastDrop, .event]

/-- What a command byte writes (R121, R122). -/
def commandElements : List Element := [.idleCnt, .rxCmd, .rxAcc, .rxIdx, .rxState]

/-- The outputs of the byte sink. -/
def sinkPorts : List Element := [.txValidPort, .txDataPort]

/-- What the rule of an operation writes, or may write: read from R113 to R130, R142 to R152, R194 to R206, R222 to R250 and
R281, with the outputs each drives. -/
def writes (i : Instr) : List Element :=
  match i with
  | .rxWsStart => [.idleCnt, .rxAcc, .rxState]
  | .rxWsSkip _ => [.idleCnt]
  | .rxFlags _ => [.idleCnt, .rxFlags, .rxAcc, .rxState]
  | .rxLenLo _ => [.idleCnt, .rxLen, .rxAcc, .rxState]
  | .rxLenHiOversize _ => [.idleCnt, .rxLen] ++ dropElements
  | .rxLenHi _ => [.idleCnt, .rxLen, .rxAcc, .rxState]
  | .rxCmdEmpty _ => [.idleCnt, .rxCmd, .rxAcc, .rxState]
  | .rxCmd _ => commandElements
  | .rxPayloadLast _ => [.idleCnt, .rxbuf, .rxAcc, .rxIdx, .rxState]
  | .rxPayload _ => [.idleCnt, .rxbuf, .rxAcc, .rxIdx]
  | .rxChkOk _ => [.idleCnt, .rxChk, .pktPending, .rxState]
  | .rxChkBad _ => [.idleCnt, .chkErrCnt] ++ dropElements
  | .rxState7 _ => [.idleCnt, .rxAcc, .rxState]
  | .rxTick => .idleCnt :: dropElements
  | .rxTimeout => dropElements
  | .pktAck => [.pktPending]
  | .plRd _ => [.plRdQ]
  | .txReq _ _ _ => [.txState, .txFlags, .txLen, .txCmd, .txCnt, .txAcc]
  | .txReqRefuse _ => [.event]
  | .txEmitStart => .txState :: sinkPorts
  | .txEmitFlags => [.txState, .txAcc] ++ sinkPorts
  | .txEmitLenLo => [.txState, .txAcc] ++ sinkPorts
  | .txEmitLenHi => [.txState, .txAcc] ++ sinkPorts
  | .txEmitCmd => [.txState, .txAcc, .txCnt] ++ sinkPorts
  | .txEmitPayload _ => [.txState, .txAcc, .txCnt] ++ sinkPorts
  | .txEmitChk => .txState :: sinkPorts
  | .mapAccept _ _ => [.mW, .mN, .event] ++ beatElements
  | .mapCfgErr _ _ => .event :: beatElements
  | .mapStripBcast _ => .event :: beatElements
  | .mapStrip _ _ => .event :: beatElements
  | .mapFlat _ _ => .event :: beatElements
  | .mapFold _ _ => .event :: beatElements
  | .mapRsvd _ _ => .event :: beatElements
  | .mapBeat => beatElements
  | .mapBcastNext => beatElements
  | .csrWrCtrl _ => [.ctrl, .rdataPort]
  | .csrWrMaxPayload _ => [.maxPayload, .rdataPort]
  | .csrWrEvent _ => [.event, .rdataPort]
  | .csrWrIrqEn _ => [.irqEn, .rdataPort]
  | .csrWrMapMode _ => [.mapMode, .rdataPort]
  | .csrWrPhysWidth _ => [.physWidth, .rdataPort]
  | .csrWrStripCount _ => [.stripCount, .rdataPort]
  | .csrWrBrightness _ => [.brightness, .rdataPort]
  | .csrRdCtrl | .csrRdMaxPayload | .csrRdChkerrCnt | .csrRdEvent | .csrRdIrqEn | .csrRdStatus | .csrRdMapMode
  | .csrRdPhysWidth | .csrRdStripCount | .csrRdBrightness | .csrRdMatrixWidth | .csrRdMatrixHeight | .csrRdLastDrop
  | .csrRdRsvdD | .csrRdRsvdE | .csrRdRsvdF | .csrIdle => [.rdataPort]
  | .csrWrChkerrCnt _ | .csrWrStatus _ | .csrWrMatrixWidth _ | .csrWrMatrixHeight _ | .csrWrLastDrop _ | .csrWrRsvdD _
  | .csrWrRsvdE _ | .csrWrRsvdF _ => [.rdataPort]
  | .scale _ => [.scalePort]
  | .reset =>
    [.rxState, .rxAcc, .rxFlags, .rxLen, .rxCmd, .rxChk, .rxIdx, .idleCnt, .pktPending, .plRdQ, .chkErrCnt, .lastDrop,
      .txState, .txFlags, .txLen, .txCmd, .txCnt, .txAcc, .mW, .mN] ++ beatElements ++
    [.ctrl, .maxPayload, .irqEn, .mapMode, .physWidth, .stripCount, .brightness, .event, .txValidPort, .rdataPort,
      .readyPorts]
  | .cmdNop | .cmdReset | .cmdAck | .cmdNak | .cmdHello | .cmdShow | .cmdGetInfo | .cmdGetPixels | .cmdGetControl
  | .cmdInfoResponse | .cmdPixelResponse | .cmdControlResponse | .cmdPixelSetAll | .cmdPixelSetRange | .cmdPixelFrame
  | .cmdSetControl | .cmdStatusUpdate | .cmdFrameAck | .cmdInputEvent => commandElements

/-! ## Invariants -/

/-- The implementation parameters have legal values (R9). -/
structure LegalParams (p : Params) : Prop where
  capPositive : 1 ≤ p.rxbufCap
  capLimit : p.rxbufCap ≤ Config.maxPayloadLimit
  ticksPositive : 1 ≤ p.timeoutTicks

/-- The form of `RXBUF`: canonical, and no address at or beyond `RXBUF_CAP` (R30, R71). -/
structure RxbufOk (s : State) : Prop where
  canonical : Memory.wf s.rx.buf = true
  inRange : ∀ a, s.cfg.rxbufCap ≤ a → Memory.find s.rx.buf a = none

/-- Whether a packet's length has been checked: the states after `ReadLengthHigh` (R131 (c)). -/
def lengthChecked (r : RxState) : Bool :=
  match r with
  | .readCommand => true
  | .readPayload => true
  | .readChecksum => true
  | _ => false

/-- The framer's invariants (R131 (a) to (e), R27, R28, R33). -/
structure RxInv (s : State) : Prop where
  stateUsed : s.rx.state ≠ .unused7
  idleBound : s.rx.idle ≤ s.cfg.timeoutTicks + 1
  idleRunning : s.rx.state ≠ .waitStart → s.rx.idle ≤ s.cfg.timeoutTicks
  lenChecked : lengthChecked s.rx.state = true → s.rx.len.toNat ≤ s.cfg.rxbufCap
  idxInside : s.rx.state = .readPayload → s.rx.idx.toNat < s.rx.len.toNat
  idxBound : s.rx.idx.toNat ≤ Config.maxPayloadLimit
  pendingWaits : s.rx.pending = true → s.rx.state = .waitStart ∧ s.rx.len.toNat ≤ s.cfg.rxbufCap
  dropCode : s.rx.lastDrop = 0 ∨ s.rx.lastDrop = Config.errChecksum ∨ s.rx.lastDrop = Config.errBufferOverflow ∨
    s.rx.lastDrop = Config.errTimeout

/-- The encoder's invariants: an accepted length was within a maximum, and payload bytes are still owed in `TxPayload`
(R142, R151). -/
structure TxInv (s : State) : Prop where
  lenChecked : s.tx.state ≠ .idle → s.tx.len.toNat ≤ s.cfg.rxbufCap
  cntInside : s.tx.state = .payload → s.tx.cnt.toNat < s.tx.len.toNat

/-- The mapper's invariants: an error beat is last and empty (R203); a beat that is not last is one of a broadcast whose
geometry was valid when it was latched (R197, R198). -/
structure MapInv (s : State) : Prop where
  errCode : s.map.err = 0 ∨ s.map.err = Config.errInvalidParam ∨ s.map.err = Config.errConfig
  errEmpty : s.map.err ≠ 0 → s.map.last = true ∧ s.map.strip = 0 ∧ s.map.pos = 0 ∧ s.map.addr = 0
  broadcast : s.map.valid = true → s.map.last = false →
    s.map.strip.toNat + 1 < s.map.n.toNat ∧ s.map.n.toNat ≤ Config.maxStrips ∧
      s.map.n.toNat * s.map.w.toNat ≤ Config.maxPixels ∧ s.map.pos.toNat < s.map.w.toNat ∧
      s.map.addr.toNat = s.map.strip.toNat * s.map.w.toNat + s.map.pos.toNat

/-- `MAX_PAYLOAD` never exceeds `RXBUF_CAP` (R225). -/
def MaxPayloadOk (s : State) : Prop := s.csr.maxPayload.toNat ≤ s.cfg.rxbufCap

/-- What holds in every state a run from reset reaches. -/
structure Inv (s : State) : Prop where
  params : LegalParams s.cfg
  rxbuf : RxbufOk s
  maxPayload : MaxPayloadOk s
  rx : RxInv s
  tx : TxInv s
  map : MapInv s

/-! ## The decode table of R99 -/

/-- A row of `rx_decode`: match, mask, condition, and the operation (R99). -/
structure RxRow where
  mtch : BitVec 11
  mask : BitVec 11
  cond : State → Byte → Bool
  op : Byte → Instr

/-- The table of R99, in its order; `otherwise` and `—` are the condition that always holds. -/
def rxDecodeTable : List RxRow :=
  [ { mtch := 0x0AA, mask := 0x7FF, cond := fun _ _ => true, op := fun _ => .rxWsStart },
    { mtch := 0x000, mask := 0x700, cond := fun _ _ => true, op := .rxWsSkip },
    { mtch := 0x100, mask := 0x700, cond := fun _ _ => true, op := .rxFlags },
    { mtch := 0x200, mask := 0x700, cond := fun _ _ => true, op := .rxLenLo },
    { mtch := 0x300, mask := 0x700,
      cond := fun s b => decide (s.csr.maxPayload.toNat < (b ++ s.rx.len.setWidth 8 : BitVec 16).toNat),
      op := .rxLenHiOversize },
    { mtch := 0x300, mask := 0x700, cond := fun _ _ => true, op := .rxLenHi },
    { mtch := 0x400, mask := 0x700, cond := fun s _ => decide (s.rx.len = 0), op := .rxCmdEmpty },
    { mtch := 0x400, mask := 0x700, cond := fun _ _ => true, op := .rxCmd },
    { mtch := 0x500, mask := 0x700, cond := fun s _ => decide (s.rx.idx.toNat + 1 = s.rx.len.toNat),
      op := .rxPayloadLast },
    { mtch := 0x500, mask := 0x700, cond := fun _ _ => true, op := .rxPayload },
    { mtch := 0x600, mask := 0x700, cond := fun s b => decide (b = s.rx.acc), op := .rxChkOk },
    { mtch := 0x600, mask := 0x700, cond := fun _ _ => true, op := .rxChkBad },
    { mtch := 0x700, mask := 0x700, cond := fun _ _ => true, op := .rxState7 } ]

/-- The operation of the first row that matches a selector word and whose condition holds (R99). -/
def firstMatchingRow (s : State) (w : BitVec 11) (b : Byte) : Option Instr :=
  (rxDecodeTable.find? fun r => decide (w &&& r.mask = r.mtch) && r.cond s b).map fun r => r.op b

/-! ## The inverse of the folded map (R205) -/

/-- The logical index of a physical index in folded matrix mode (R205). -/
def unfoldIndex (w a : Nat) : Nat :=
  let ps := a / w
  let pos := a % w
  let width := w / 2
  if pos < width then 2 * ps * width + pos else (2 * ps + 1) * width + (w - 1 - pos)

/-! ## Checksums (R93) -/

/-- The XOR of a list of bytes. -/
def xorBytes : List Byte → Byte
  | [] => 0
  | b :: bs => b ^^^ xorBytes bs

/-- The first `n` bytes of `RXBUF`. -/
def rxbufBytes (s : State) (n : Nat) : List Byte := (List.range n).map (Memory.read s.rx.buf)

/-- `flags ^ length_lo ^ length_hi ^ command ^ payload` (R93). -/
def packetXor (flags : Byte) (len : Half) (cmd : Byte) (payload : List Byte) : Byte :=
  flags ^^^ (lowHalf len ^^^ (highHalf len ^^^ (cmd ^^^ xorBytes payload)))

/-- What `rx_acc` holds in each receive state: the XOR of the bytes accepted since the start byte (R131 (f)). -/
def accumulatorOk (s : State) : Prop :=
  match s.rx.state with
  | .readFlags => s.rx.acc = 0
  | .readLengthLow => s.rx.acc = s.rx.flags
  | .readLengthHigh => s.rx.acc = s.rx.flags ^^^ lowHalf s.rx.len ∧ highHalf s.rx.len = 0
  | .readCommand => s.rx.acc = s.rx.flags ^^^ (lowHalf s.rx.len ^^^ highHalf s.rx.len)
  | .readPayload => s.rx.acc = packetXor s.rx.flags s.rx.len s.rx.cmd (rxbufBytes s s.rx.idx.toNat)
  | .readChecksum => s.rx.acc = packetXor s.rx.flags s.rx.len s.rx.cmd (rxbufBytes s s.rx.len.toNat)
  | _ => True

/-- The pending packet's checksum is the XOR of its bytes from flags through the last payload byte (R93, R128). -/
def pendingChecksumOk (s : State) : Prop :=
  s.rx.pending = true → s.rx.chk = packetXor s.rx.flags s.rx.len s.rx.cmd (rxbufBytes s s.rx.len.toNat)

/-- The checksum invariant. -/
structure ChecksumInv (s : State) : Prop where
  accumulator : accumulatorOk s
  delivered : pendingChecksumOk s

/-! ## Byte streams -/

/-- The bytes of a packet on the wire with the checksum byte `k` (R91). -/
def wirePacketWith (flags cmd : Byte) (payload : List Byte) (k : Byte) : List Byte :=
  let len := BitVec.ofNat 16 payload.length
  [Config.startByte, flags, lowHalf len, highHalf len, cmd] ++ (payload ++ [k])

/-- The checksum of a packet (R93). -/
def checksumOf (flags cmd : Byte) (payload : List Byte) : Byte :=
  packetXor flags (BitVec.ofNat 16 payload.length) cmd payload

/-- The bytes of a packet on the wire (R91, R93). -/
def wirePacket (flags cmd : Byte) (payload : List Byte) : List Byte :=
  wirePacketWith flags cmd payload (checksumOf flags cmd payload)

/-- One byte offered on `rx_*` and nothing else. -/
def byteIn (b : Byte) : Inputs := { rxValid := true, rxData := b }

/-- One tick and nothing else. -/
def tickIn : Inputs := { tick := true }

/-- The state that takes these inputs next, cycle by cycle, no offer outstanding. -/
def State.fed (s : State) (is : List Inputs) : State := { s with env := is, held := Held.none }

/-- The outcome of `k` cycles, up to the first fault or refusal. -/
def runFor : Nat → State → Result
  | 0, s => .next s
  | k + 1, s =>
    match step s with
    | .next t => runFor k t
    | o => o

/-- The outcome of as many cycles as there are inputs. -/
def runInputs (s : State) (is : List Inputs) : Result := runFor is.length (s.fed is)

/-- The bytes the sink takes in a run of `k` cycles: `tx_data` of each cycle with `tx_valid` and `tx_ready` (R15, R57). -/
def sentBytes : Nat → State → List Byte
  | 0, _ => []
  | k + 1, s =>
    match step s with
    | .next t =>
      (if t.out.txValid && (currentInputs s).txReady then [t.out.txData] else []) ++ sentBytes k t
    | _ => []

/-- The cycles of one transmission with a sink that is always ready and a client that offers each payload byte when it
is due: the request, five header bytes, the payload, the checksum. -/
def transmission (flags cmd : Byte) (payload : List Byte) : List Inputs :=
  { txReqValid := true, txReqFlags := flags, txReqCmd := cmd, txReqLen := BitVec.ofNat 16 payload.length,
    txReady := true } ::
    (List.replicate 5 { txReady := true } ++
      (payload.map (fun p => { txPlValid := true, txPlData := p, txReady := true }) ++ [{ txReady := true }]))

/-- The beats the map client takes in a run of `k` cycles (R61). -/
def takenBeats : Nat → State → List Beat
  | 0, _ => []
  | k + 1, s =>
    match step s with
    | .next t =>
      (if t.out.mapRspValid && (currentInputs s).mapRspReady then
        [{ strip := t.out.mapRspStrip.toNat, pos := t.out.mapRspPos.toNat, addr := t.out.mapRspAddr.toNat,
           last := t.out.mapRspLast, err := t.out.mapRspErr }]
      else []) ++ takenBeats k t
    | _ => []

end Sys2Proof.Machine
end

