-- ==== Sys2Proof/Certificates/Slice0/Obligations.lean ====
section
/-! DEFINITION. The statements for the provers. Each says what an operation, a cycle or a run of cycles does, in the words of
the rule its docstring names. `exec i s` applies the rule of `i` to `s` whether or not a cycle from `s` would select `i`: the
model's choice (log 8), so a statement about `exec` needs no hypothesis on what selects the operation. -/

open Sys2Proof Sys2Proof.Machine

/-! ## Encodings -/

/-- Every well-formed operation is what its own encoding decodes to, whatever its operands (R99 to R105). The port tag, the
condition bit and the packing of the operands beside the selector word are the model's choice (log 12). -/
def Obligations.DecodeOfEncodeIsTheInstruction : Prop :=
  ∀ i : Instr, WellFormed i → decode (encode i) = .ok i

/-- Words written out bit by bit from the tables of R99, R101, R102, R103 and R105 decode to the operations those name;
the operands are packed as the model chose (log 12). -/
def Obligations.SpecSelectorWordsDecode : Prop :=
  decode { port := .rxByte, word := 0b00010101010, cond := false, operand := 0 } = .ok .rxWsStart ∧
  decode { port := .rxByte, word := 0b10000110000, cond := false, operand := 0 } = .ok (.rxCmd 0x30) ∧
  decode { port := .rxByte, word := 0b11001001100, cond := true, operand := 0 } = .ok (.rxChkOk 0x4C) ∧
  decode { port := .txByte, word := 0b110, cond := false, operand := 0x05 } = .ok (.txEmitPayload 0x05) ∧
  decode { port := .mapRow, word := 0b0011111111, cond := true, operand := 7 } = .ok (.mapStripBcast 7) ∧
  decode { port := .mapRow, word := 0b1000000000, cond := true, operand := 60 } = .ok (.mapFold 0 60) ∧
  decode { port := .csr, word := 0b00101, cond := false, operand := 0 } = .ok .csrRdStatus ∧
  decode { port := .csr, word := 0b10111, cond := false, operand := 0x78 } = .ok (.csrWrPhysWidth 0x78) ∧
  decode { port := .command, word := 0b00110011, cond := false, operand := 0 } = .ok .cmdPixelFrame

/-- The table of R99 is total, and for every state and byte the decoder gives the operation of its first matching row. -/
def Obligations.RxDecodeFollowsTheFirstMatchingRow : Prop :=
  ∀ (s : State) (b : Byte), ∃ i : Instr,
    firstMatchingRow s (rxStateBits s.rx.state ++ b) b = some i ∧
      decode (rxWord (rxStateBits s.rx.state) b (rxCondition s b)) = .ok i

/-- The command codes of R182 have no row: 0x06 to 0x0F, 0x13 to 0x1F, 0x23 to 0x2F, 0x32, 0x34 to 0x3F, 0x41 to 0x4F,
0x52, 0x54 to 0x5F, 0x60 to 0xFF, and no other. -/
def Obligations.ReservedCommandCodesHaveNoRow : Prop :=
  ∀ code : Byte, decode (commandWord code) = .error .reservedCommand ↔
    (0x06 ≤ code ∧ code ≤ 0x0F) ∨ (0x13 ≤ code ∧ code ≤ 0x1F) ∨ (0x23 ≤ code ∧ code ≤ 0x2F) ∨ code = 0x32 ∨
      (0x34 ≤ code ∧ code ≤ 0x3F) ∨ (0x41 ≤ code ∧ code ≤ 0x4F) ∨ code = 0x52 ∨
      (0x54 ≤ code ∧ code ≤ 0x5F) ∨ 0x60 ≤ code

/-! ## The step -/

/-- A step decodes the selector words its cycle presents, all to well-formed operations, and runs `exec` of each in order, from
the pre-state with the cycle's outputs on the ports, its inputs consumed and its untaken offers recorded. The order and this
bookkeeping are the model's choice (log 1, 4, 9, 11). -/
def Obligations.StepRunsTheDecodedOperations : Prop :=
  ∀ s : State, dutyBroken s (currentInputs s) = none →
    ∃ is : List Instr, decodeAll (opWords s (currentInputs s)) = .ok is ∧ (∀ i ∈ is, WellFormed i) ∧
      step s = runOps is (beginCycle s (currentInputs s))

/-- When beside the scaler and an idle register port a cycle presents ONE word, the step is `exec` of what that word decodes
to, at the pre-state with the cycle's outputs on the ports, its inputs consumed and its untaken offers recorded; that
bookkeeping is the model's choice (log 1, 4, 11). -/
def Obligations.OneOperationCycleIsItsExec : Prop :=
  ∀ (s : State) (pre : List OpWord) (w : OpWord) (i : Instr),
    dutyBroken s (currentInputs s) = none →
    pre = [] ∨ (pre = [{ port := .csrIdle, word := 0, cond := false, operand := 0 }]) →
    opWords s (currentInputs s) = scaleWords (currentInputs s) ++ (pre ++ [w]) →
    decode w = .ok i →
      step s = exec i (beginCycle s (currentInputs s))

/-- Every unit reads the pre-state only: the operations run one after another give, in every register, the value that the
register's own rule computes from the pre-state and the inputs (R21, R80): the model's order makes no difference (log 9). The
hypothesis on a payload byte excludes the fault at an `RXBUF` index that does not exist, the model's choice (log 10). -/
def Obligations.StepIsTheLockstepCycle : Prop :=
  ∀ s : State, dutyBroken s (currentInputs s) = none →
    ((currentInputs s).rst = false → takesPayload s (currentInputs s) = true → s.rx.idx.toNat < s.cfg.rxbufCap) →
      step s = .next (lockstep s (currentInputs s))

/-- The duties of R11 (1) and (3), in every cycle, with `rst = 1` or not (spec/93 I11; how the model sees them is its reading,
log 4, 5, 6). Which offers are outstanding: those whose `*_ready` was 0 in the cycle before. A cycle that drops or changes one
of them, on any of the four channels, is refused; so is one that raises a payload byte owed to no packet, or that continues,
beside a new request with a payload, one whose packet a reset has ended (R291). -/
def Obligations.WithdrawnByteIsRefused : Prop :=
  ∀ (s : State) (i : Inputs), currentInputs s = i →
    (∀ t, step s = .next t →
      t.held.rx = (if i.rxValid = true ∧ t.out.rxReady = false then some i.rxData else none) ∧
      t.held.txReq = (if i.txReqValid = true ∧ t.out.txReqReady = false then
        some (i.txReqFlags, i.txReqCmd, i.txReqLen) else none) ∧
      t.held.txPl = (if i.txPlValid = true ∧ t.out.txPlReady = false then some i.txPlData else none) ∧
      t.held.mapReq = (if i.mapReqValid = true ∧ t.out.mapReqReady = false then
        some (i.mapReqStrip, i.mapReqIndex) else none)) ∧
    (∀ b, s.held.rx = some b → i.rxValid = false ∨ i.rxData ≠ b → step s = .refused .offerWithdrawn) ∧
    (∀ f c n, s.held.txReq = some (f, c, n) →
      i.txReqValid = false ∨ i.txReqFlags ≠ f ∨ i.txReqCmd ≠ c ∨ i.txReqLen ≠ n → step s = .refused .offerWithdrawn) ∧
    (∀ p, s.held.txPl = some p → i.txPlValid = false ∨ i.txPlData ≠ p → step s = .refused .offerWithdrawn) ∧
    (∀ strip l, s.held.mapReq = some (strip, l) →
      i.mapReqValid = false ∨ i.mapReqStrip ≠ strip ∨ i.mapReqIndex ≠ l → step s = .refused .offerWithdrawn) ∧
    (offersKept s i = true → i.txPlValid = true →
      (s.held.txPl = none →
        (s.tx.state = .idle ∧
          (i.rst = true ∨ i.txReqValid = false ∨ i.txReqLen = 0 ∨ s.csr.maxPayload.toNat < i.txReqLen.toNat)) ∨
        s.tx.state = .chk ∨ (s.tx.state ≠ .idle ∧ s.tx.state ≠ .payload ∧ s.tx.len = 0) →
          step s = .refused .payloadNotOwed) ∧
      (s.held.txPl ≠ none → s.tx.state = .idle → i.rst = false → i.txReqValid = true → i.txReqLen ≠ 0 →
        step s = .refused .payloadNotOwed))

/-- No input, encoding or register value makes the block stop (R261): in every state that keeps the invariant, a cycle in
which the environment breaks no duty has a next state. Which duties a cycle can break is the model's reading (log 4, 5, 6). -/
def Obligations.NoTrapInReachableStates : Prop :=
  ∀ s : State, Inv s → dutyBroken s (currentInputs s) = none → ∃ t, step s = .next t

/-- The outputs of a cycle, port by port, from the pre-state and the inputs of the cycle (R56 to R64, R144, R221). -/
def Obligations.OutputsFollowThePreState : Prop :=
  ∀ s t : State, step s = .next t → ∀ i : Inputs, currentInputs s = i →
    t.out.rxReady = (!i.rst && !s.rx.pending) ∧
    t.out.txValid = (!i.rst && (match s.tx.state with | .idle => false | .payload => i.txPlValid | _ => true)) ∧
    t.out.txData = (match s.tx.state with
      | .idle => 0x00
      | .start => 0xAA
      | .flags => s.tx.flags
      | .lenLo => s.tx.len.extractLsb' 0 8
      | .lenHi => s.tx.len.extractLsb' 8 8
      | .cmd => s.tx.cmd
      | .payload => i.txPlData
      | .chk => s.tx.acc) ∧
    t.out.txReqReady = (!i.rst && decide (s.tx.state = .idle)) ∧
    t.out.txPlReady = (!i.rst && decide (s.tx.state = .payload) && i.txReady) ∧
    t.out.pktValid = s.rx.pending ∧ t.out.pktFlags = s.rx.flags ∧ t.out.pktLen = s.rx.len ∧
    t.out.pktCmd = s.rx.cmd ∧ t.out.pktChk = s.rx.chk ∧ t.out.plRdData = s.rx.plRdQ ∧
    t.out.mapReqReady = (!i.rst && !s.map.valid) ∧ t.out.mapRspValid = s.map.valid ∧
    t.out.mapRspAddr = s.map.addr ∧ t.out.mapRspStrip = s.map.strip ∧ t.out.mapRspPos = s.map.pos ∧
    t.out.mapRspLast = s.map.last ∧ t.out.mapRspErr = s.map.err ∧
    t.out.scaleOut = scaleValue i.scaleIn s.csr.brightness ∧
    t.out.csrRdata = (if i.rst = false ∧ i.csrValid = true ∧ i.csrWe = false then readRegister s i.csrAddr else 0)

/-- The interrupt output (R266): low in reset, else high exactly when an enabled `EVENT` bit is 1 or an enabled packet is
pending, all of the pre-state. -/
def Obligations.IrqIsTheEnabledSources : Prop :=
  ∀ s t : State, step s = .next t →
    (t.out.irq = true ↔ (currentInputs s).rst = false ∧
      ((∃ k, k < 5 ∧ s.event.getLsbD k = true ∧ s.csr.irqEn.getLsbD k = true) ∨
        (s.rx.pending = true ∧ s.csr.irqEn.getLsbD 5 = true)))

/-- The `EVENT` merge of a cycle without reset (R265): the bits raised in the cycle win over the bits a write clears. -/
def Obligations.EventMergeSetWinsOverClear : Prop :=
  ∀ s t : State, step s = .next t → (currentInputs s).rst = false →
    t.event = (s.event &&& ~~~ (if (currentInputs s).csrValid = true ∧ (currentInputs s).csrWe = true ∧
        (currentInputs s).csrAddr = 3 then (currentInputs s).csrWdata.extractLsb' 0 5 else 0)) |||
      eventSet s (currentInputs s)

/-- The receive causes of R264: what a cycle without reset does to `LAST_DROP` and `CHKERR_CNT`; at most one of the three
causes holds, and each returns the framer to `WaitStart` (R262, R268). -/
def Obligations.ReceiveDropsAreRecorded : Prop :=
  ∀ (s t : State) (i : Inputs), currentInputs s = i → step s = .next t → i.rst = false →
    t.rx.lastDrop = (if checksumFails s i then 0x01 else if oversize s i then 0x05 else
      if timesOut s i then 0x09 else s.rx.lastDrop) ∧
    t.rx.chkErr = (if checksumFails s i then s.rx.chkErr + 1 else s.rx.chkErr) ∧
    (checksumFails s i = true → oversize s i = false ∧ timesOut s i = false) ∧
    (oversize s i = true → timesOut s i = false) ∧
    (checksumFails s i = true ∨ oversize s i = true ∨ timesOut s i = true → t.rx.state = .waitStart)

/-- `RXBUF` has one writer (R30, R123, R124): a byte of it changes only in a cycle that accepts a payload byte, at `rx_idx`,
and it then holds that byte. Reset changes none (R281). -/
def Obligations.RxbufChangesOnlyAtThePayloadIndex : Prop :=
  ∀ s t : State, step s = .next t →
    (∀ a, Memory.read t.rx.buf a ≠ Memory.read s.rx.buf a →
      (currentInputs s).rst = false ∧ takesPayload s (currentInputs s) = true ∧ a = s.rx.idx.toNat) ∧
    ((currentInputs s).rst = false → takesPayload s (currentInputs s) = true →
      Memory.read t.rx.buf s.rx.idx.toNat = (currentInputs s).rxData)

/-- While a packet is pending and no reset comes, no byte is accepted: the header registers, `rx_idx` and every byte of
`RXBUF` keep their values, and the packet stays pending exactly until the consumer acknowledges it (R26, R29, R81, R111). -/
def Obligations.PendingPacketIsStable : Prop :=
  ∀ s t : State, s.rx.pending = true → (currentInputs s).rst = false → step s = .next t →
    t.rx.flags = s.rx.flags ∧ t.rx.len = s.rx.len ∧ t.rx.cmd = s.rx.cmd ∧ t.rx.chk = s.rx.chk ∧
      t.rx.idx = s.rx.idx ∧ RxbufKept s t ∧ t.rx.pending = !(currentInputs s).pktAck ∧ t.out.rxReady = false

/-- A unit whose partner does not act holds its registers, without limit and without a timeout (R144, R202, R276, R286). -/
def Obligations.StalledUnitsHold : Prop :=
  ∀ (s t : State) (i : Inputs), currentInputs s = i → step s = .next t → i.rst = false →
    (s.tx.state ≠ .idle → i.txReady = false → t.tx = s.tx) ∧
    (s.tx.state = .payload → i.txPlValid = false → t.tx = s.tx) ∧
    (s.map.valid = true → i.mapRspReady = false → t.map = s.map) ∧
    (i.plRdEn = false → t.rx.plRdQ = s.rx.plRdQ)

/-- A register write is seen by the units from the next cycle only (R267 (h), R285). A cycle with a write and the same cycle
without it differ in the field that the address names and in nothing else: not at all at the addresses whose write is ignored
(R227, R233, R243, R245, R247, R249), nor in a cycle with `rst = 1` (R221). -/
def Obligations.RegisterWriteIsSeenNextCycle : Prop :=
  ∀ (s t u : State) (i : Inputs), i.csrValid = true → i.csrWe = true →
    cycle s i = .next t → cycle s { i with csrValid := false } = .next u →
      (i.rst = true → t = u) ∧
      (i.rst = false →
        t = match i.csrAddr with
          | 0x0 => { u with csr := { u.csr with txResp := i.csrWdata.getLsbD 0 } }
          | 0x1 => { u with csr := { u.csr with maxPayload := BitVec.ofNat 11 (min i.csrWdata.toNat s.cfg.rxbufCap) } }
          | 0x3 => { u with event := (s.event &&& ~~~ i.csrWdata.extractLsb' 0 5) ||| eventSet s i }
          | 0x4 => { u with csr := { u.csr with irqEn := i.csrWdata.extractLsb' 0 6 } }
          | 0x6 => { u with csr := { u.csr with mode := mapModeOfBits (i.csrWdata.extractLsb' 0 2) } }
          | 0x7 => { u with csr := { u.csr with physWidth := i.csrWdata } }
          | 0x8 => { u with csr := { u.csr with stripCount := i.csrWdata.extractLsb' 0 5 } }
          | 0x9 => { u with csr := { u.csr with brightness := i.csrWdata.extractLsb' 0 8 } }
          | _ => u)

/-- Every command byte is carried unchanged, listed or reserved (R161): the framer takes it, the output port shows it, the
encoder latches it and sends it. -/
def Obligations.EveryCommandByteIsCarriedUnchanged : Prop :=
  ∀ (s t : State) (i : Inputs), currentInputs s = i → step s = .next t → i.rst = false →
    (s.rx.state = .readCommand → fireRx s i = true → t.rx.cmd = i.rxData ∧ t.rx.state ≠ .waitStart ∧
      t.rx.lastDrop = s.rx.lastDrop) ∧
    (t.out.pktCmd = s.rx.cmd) ∧
    (fireTxReq s i = true → i.txReqLen.toNat ≤ s.csr.maxPayload.toNat → t.tx.cmd = i.txReqCmd) ∧
    (s.tx.state = .cmd → t.out.txValid = true ∧ t.out.txData = s.tx.cmd)

/-- Which operations can write what (R21, R30, R32, R33, R40). The first clause covers every element of R23 and every output:
one that the operation's row of `writes` does not list keeps its value. The others say of some elements, in full, which
operations write them. The last three are about the model's own fields (log 1, 2, 4): no operation changes the parameters, the
inputs to come or the record of offers. -/
def Obligations.OnlyNamedOperationsWrite : Prop :=
  ∀ (i : Instr) (s t : State), exec i s = .next t →
    (∀ e : Element, e ∉ writes i → e.kept s t) ∧
    (t.rx.chkErr ≠ s.rx.chkErr → (∃ b, i = .rxChkBad b) ∨ i = .reset) ∧
    (t.rx.lastDrop ≠ s.rx.lastDrop →
      (∃ b, i = .rxChkBad b ∨ i = .rxLenHiOversize b) ∨ i = .rxTick ∨ i = .rxTimeout ∨ i = .reset) ∧
    (¬ RxbufKept s t → ∃ b, i = .rxPayload b ∨ i = .rxPayloadLast b) ∧
    (t.rx.plRdQ ≠ s.rx.plRdQ → (∃ a, i = .plRd a) ∨ i = .reset) ∧
    (t.rx.pending ≠ s.rx.pending → (∃ b, i = .rxChkOk b) ∨ i = .pktAck ∨ i = .reset) ∧
    (t.csr ≠ s.csr → (∃ d, i = .csrWrCtrl d ∨ i = .csrWrMaxPayload d ∨ i = .csrWrIrqEn d ∨ i = .csrWrMapMode d ∨
      i = .csrWrPhysWidth d ∨ i = .csrWrStripCount d ∨ i = .csrWrBrightness d) ∨ i = .reset) ∧
    (t.map.w ≠ s.map.w ∨ t.map.n ≠ s.map.n → (∃ strip l, i = .mapAccept strip l) ∨ i = .reset) ∧
    (t.tx.len ≠ s.tx.len → (∃ f c n, i = .txReq f c n) ∨ i = .reset) ∧
    t.cfg = s.cfg ∧ t.env = s.env ∧ t.held = s.held

/-! ## Reset and invariants -/

/-- The state after reset has, in every element, the value of R65; `MAX_PAYLOAD` is `RXBUF_CAP`. (The parameters' defaults
are those of R9; `RXBUF` is not in question: R65 leaves it unspecified.) -/
def Obligations.ResetStateHasTheListedValues : Prop :=
  State.reset.rx.state = .waitStart ∧ State.reset.rx.acc = 0x00 ∧ State.reset.rx.flags = 0x00 ∧
  State.reset.rx.cmd = 0x00 ∧ State.reset.rx.chk = 0x00 ∧ State.reset.rx.len = 0x0000 ∧ State.reset.rx.idx = 0 ∧
  State.reset.rx.idle = 0 ∧ State.reset.rx.pending = false ∧ State.reset.rx.plRdQ = 0x00 ∧
  State.reset.rx.chkErr = 0x0000 ∧ State.reset.rx.lastDrop = 0x00 ∧
  State.reset.tx.state = .idle ∧ State.reset.tx.flags = 0x00 ∧ State.reset.tx.cmd = 0x00 ∧
  State.reset.tx.acc = 0x00 ∧ State.reset.tx.len = 0x0000 ∧ State.reset.tx.cnt = 0 ∧
  State.reset.map.w = 0 ∧ State.reset.map.n = 0 ∧ State.reset.map.valid = false ∧ State.reset.map.last = false ∧
  State.reset.map.addr = 0x0000 ∧ State.reset.map.pos = 0x0000 ∧ State.reset.map.strip = 0 ∧
  State.reset.map.err = 0x00 ∧
  ctrlWord State.reset = 0x0001 ∧ State.reset.csr.maxPayload.toNat = State.reset.cfg.rxbufCap ∧
  eventWord State.reset = 0x0000 ∧ irqEnWord State.reset = 0x0000 ∧ mapModeWord State.reset = 0x0000 ∧
  physWidthWord State.reset = 0x0000 ∧ stripCountWord State.reset = 0x0000 ∧ brightnessWord State.reset = 0x00FF

/-- A cycle with `rst = 1` overrides every other input (R267 (a), R281, R282): from every state and under every input each
element takes its value of R65, `RXBUF` keeps its contents, no ready, `tx_valid` or `irq` is driven, `csr_rdata` is 0, and the
packet and beat outputs still show the pre-state. Only the duties of R11 still bind the environment (log 4, 5, 6). -/
def Obligations.ResetCycleOverridesEverything : Prop :=
  ∀ s : State, dutyBroken s (currentInputs s) = none → (currentInputs s).rst = true → ∃ t, step s = .next t ∧
    t.rx = { state := .waitStart, acc := 0, flags := 0, len := 0, cmd := 0, chk := 0, idx := 0, idle := 0,
             pending := false, buf := s.rx.buf, plRdQ := 0, chkErr := 0, lastDrop := 0 } ∧
    t.tx = { state := .idle, flags := 0, len := 0, cmd := 0, cnt := 0, acc := 0 } ∧
    t.map = { w := 0, n := 0, valid := false, addr := 0, strip := 0, pos := 0, last := false, err := 0 } ∧
    t.csr = { txResp := true, maxPayload := BitVec.ofNat 11 s.cfg.rxbufCap, irqEn := 0, mode := .strip,
              physWidth := 0, stripCount := 0, brightness := 0xFF } ∧
    t.event = 0 ∧ t.cfg = s.cfg ∧ RxbufKept s t ∧
    t.out.rxReady = false ∧ t.out.txReqReady = false ∧ t.out.txPlReady = false ∧ t.out.mapReqReady = false ∧
    t.out.txValid = false ∧ t.out.irq = false ∧ t.out.csrRdata = 0 ∧
    t.out.pktValid = s.rx.pending ∧ t.out.mapRspValid = s.map.valid ∧
    t.out.scaleOut = scaleValue (currentInputs s).scaleIn s.csr.brightness

/-- One reset cycle brings every state with legal parameters and a well-formed `RXBUF` to one that keeps the invariant
(R281, R283), as long as the environment breaks no duty of R11 in it (log 4, 5, 6). -/
def Obligations.ResetCycleEstablishesTheInvariant : Prop :=
  ∀ s : State, LegalParams s.cfg → RxbufOk s → dutyBroken s (currentInputs s) = none →
    (currentInputs s).rst = true → ∃ t, step s = .next t ∧ Inv t

/-- The invariants hold in the state after reset. -/
def Obligations.InvariantsHoldAtReset : Prop := Inv State.reset ∧ ChecksumInv State.reset

/-- Every step keeps the invariant (R131 (a) to (e), and the memory's canonical form, the legal `MAX_PAYLOAD`, the encoder's and
the mapper's invariants beside it). -/
def Obligations.StepKeepsTheInvariant : Prop := ∀ s t : State, Inv s → step s = .next t → Inv t

/-- Every step keeps the checksum invariant (R131 (f), R93, R128): `rx_acc` is the XOR of the bytes accepted since the start
byte, and a pending packet's checksum is the XOR of its flags, length, command and the payload bytes in `RXBUF`. -/
def Obligations.StepKeepsTheChecksumInvariant : Prop :=
  ∀ s t : State, Inv s → ChecksumInv s → step s = .next t → ChecksumInv t

/-! ## What each operation does: receive framer -/

/-- `WaitStart` (R115, R116) and the unused state (R127): the start byte opens a packet, any other is skipped. -/
def Obligations.RxWaitBytesComplete : Prop :=
  ∀ (s : State) (b : Byte),
    (∃ t, exec .rxWsStart s = .next t ∧ t.rx = { s.rx with idle := 0, acc := 0x00, state := .readFlags } ∧
      OutsideRxKept s t ∧ RxbufKept s t) ∧
    (∃ t, exec (.rxWsSkip b) s = .next t ∧ t.rx = { s.rx with idle := 0 } ∧ OutsideRxKept s t ∧ RxbufKept s t) ∧
    (∃ t, exec (.rxState7 b) s = .next t ∧
      t.rx = (if b = 0xAA then { s.rx with idle := 0, acc := 0x00, state := .readFlags } else { s.rx with idle := 0 }) ∧
      OutsideRxKept s t ∧ RxbufKept s t)

/-- The flags byte and the two length bytes (R117, R118, R119), the length assembled low byte first (R92). -/
def Obligations.RxHeaderBytesComplete : Prop :=
  ∀ (s : State) (b : Byte),
    (∃ t, exec (.rxFlags b) s = .next t ∧
      t.rx = { s.rx with idle := 0, flags := b, acc := s.rx.acc ^^^ b, state := .readLengthLow } ∧
      OutsideRxKept s t ∧ RxbufKept s t) ∧
    (∃ t, exec (.rxLenLo b) s = .next t ∧
      t.rx = { s.rx with idle := 0, len := (0 : Byte) ++ b, acc := s.rx.acc ^^^ b, state := .readLengthHigh } ∧
      OutsideRxKept s t ∧ RxbufKept s t) ∧
    (∃ t, exec (.rxLenHi b) s = .next t ∧
      t.rx = { s.rx with
        idle := 0, len := b ++ s.rx.len.extractLsb' 0 8, acc := s.rx.acc ^^^ b, state := .readCommand } ∧
      OutsideRxKept s t ∧ RxbufKept s t)

/-- The command byte, with and without a payload to come (R121, R122), and the checksum byte that matches, which delivers the
packet (R125). -/
def Obligations.RxCommandAndChecksumBytesComplete : Prop :=
  ∀ (s : State) (b : Byte),
    (∃ t, exec (.rxCmdEmpty b) s = .next t ∧
      t.rx = { s.rx with idle := 0, cmd := b, acc := s.rx.acc ^^^ b, state := .readChecksum } ∧
      OutsideRxKept s t ∧ RxbufKept s t) ∧
    (∃ t, exec (.rxCmd b) s = .next t ∧
      t.rx = { s.rx with idle := 0, cmd := b, acc := s.rx.acc ^^^ b, idx := 0, state := .readPayload } ∧
      OutsideRxKept s t ∧ RxbufKept s t) ∧
    (∃ t, exec (.rxChkOk b) s = .next t ∧
      t.rx = { s.rx with idle := 0, chk := b, pending := true, state := .waitStart } ∧
      OutsideRxKept s t ∧ RxbufKept s t)

/-- A payload byte (R123, R124) at an index that exists: stored at `rx_idx`, every other byte of `RXBUF` as before, and after
the last one the framer waits for the checksum. -/
def Obligations.RxPayloadBytesComplete : Prop :=
  ∀ (s : State) (b : Byte), s.rx.idx.toNat < s.cfg.rxbufCap →
    (∃ t, exec (.rxPayload b) s = .next t ∧
      t.rx = { s.rx with idle := 0, acc := s.rx.acc ^^^ b, idx := s.rx.idx + 1, buf := t.rx.buf } ∧
      Memory.read t.rx.buf s.rx.idx.toNat = b ∧ RxbufKeptBut s.rx.idx.toNat s t ∧ OutsideRxKept s t) ∧
    (∃ t, exec (.rxPayloadLast b) s = .next t ∧
      t.rx = { s.rx with
        idle := 0, acc := s.rx.acc ^^^ b, idx := s.rx.idx + 1, buf := t.rx.buf, state := .readChecksum } ∧
      Memory.read t.rx.buf s.rx.idx.toNat = b ∧ RxbufKeptBut s.rx.idx.toNat s t ∧ OutsideRxKept s t)

/-- The model's choice (log 10), not a rule of the spec: a payload byte at an index that does not exist faults.
`spec/20_memory.md` section 1 (R71) gives `RXBUF` no such address, and R123 says that no run writes there. -/
def Obligations.RxPayloadOutsideRxbufFaults : Prop :=
  ∀ (s : State) (b : Byte), s.cfg.rxbufCap ≤ s.rx.idx.toNat →
    exec (.rxPayload b) s = .fault .rxbufOutOfRange ∧ exec (.rxPayloadLast b) s = .fault .rxbufOutOfRange

/-- The three drops (R114, R120, R126, R262): `rx_state` to `WaitStart`, the code in `LAST_DROP`, its `EVENT` bit set; the
checksum drop also counts, modulo 2^16. Nothing else is saved or changed (R268). -/
def Obligations.RxDropsComplete : Prop :=
  ∀ (s : State) (b : Byte),
    (∃ t, exec (.rxChkBad b) s = .next t ∧
      t.rx = { s.rx with idle := 0, chkErr := s.rx.chkErr + 1, state := .waitStart, lastDrop := 0x01 } ∧
      t.event = s.event ||| 0b00001 ∧ OutsideRxEventKept s t ∧ RxbufKept s t) ∧
    (∃ t, exec (.rxLenHiOversize b) s = .next t ∧
      t.rx = { s.rx with
        idle := 0, len := b ++ s.rx.len.extractLsb' 0 8, state := .waitStart, lastDrop := 0x05 } ∧
      t.event = s.event ||| 0b00010 ∧ OutsideRxEventKept s t ∧ RxbufKept s t) ∧
    (∃ t, exec .rxTimeout s = .next t ∧ t.rx = { s.rx with state := .waitStart, lastDrop := 0x09 } ∧
      t.event = s.event ||| 0b00100 ∧ OutsideRxEventKept s t ∧ RxbufKept s t)

/-- A tick (R113): the idle counter counts and saturates; outside `WaitStart` and the unused state, the tick that takes it
past `TIMEOUT_TICKS` discards the partial packet. -/
def Obligations.RxTickCounts : Prop :=
  ∀ s : State, ∃ t, exec .rxTick s = .next t ∧ OutsideRxEventKept s t ∧ RxbufKept s t ∧
    (if s.rx.state ≠ .waitStart ∧ s.rx.state ≠ .unused7 ∧ s.rx.idle + 1 > s.cfg.timeoutTicks then
      t.rx = { s.rx with
        idle := min (s.rx.idle + 1) (s.cfg.timeoutTicks + 1), state := .waitStart, lastDrop := 0x09 } ∧
      t.event = s.event ||| 0b00100
    else
      t.rx = { s.rx with idle := min (s.rx.idle + 1) (s.cfg.timeoutTicks + 1) } ∧ t.event = s.event)

/-- The acknowledge (R129) and the payload read (R130): 0x00 at or beyond `RXBUF_CAP`. -/
def Obligations.AckAndPayloadReadComplete : Prop :=
  ∀ (s : State) (a : BitVec 10),
    (∃ t, exec .pktAck s = .next t ∧ t.rx = { s.rx with pending := false } ∧ OutsideRxKept s t ∧ RxbufKept s t) ∧
    (∃ t, exec (.plRd a) s = .next t ∧
      t.rx = { s.rx with
        plRdQ := if a.toNat < s.cfg.rxbufCap then Memory.read s.rx.buf a.toNat else 0x00 } ∧
      OutsideRxKept s t ∧ RxbufKept s t)

/-- The 19 wire command codes (R105, R163 to R181): each code decodes to its operation, and the framer that takes it as a
packet's command byte carries it unchanged (R121, R122, R161; the meaning of these rows is log 14). -/
def Obligations.WireCommandsAreCarried : Prop :=
  ∀ (s : State) (i : Instr) (code : Byte),
    (i, code) ∈ [(Instr.cmdNop, (0x00 : Byte)), (.cmdReset, 0x01), (.cmdAck, 0x02), (.cmdNak, 0x03), (.cmdHello, 0x04),
      (.cmdShow, 0x05), (.cmdGetInfo, 0x10), (.cmdGetPixels, 0x11), (.cmdGetControl, 0x12), (.cmdInfoResponse, 0x20),
      (.cmdPixelResponse, 0x21), (.cmdControlResponse, 0x22), (.cmdPixelSetAll, 0x30), (.cmdPixelSetRange, 0x31),
      (.cmdPixelFrame, 0x33), (.cmdSetControl, 0x40), (.cmdStatusUpdate, 0x50), (.cmdFrameAck, 0x51),
      (.cmdInputEvent, 0x53)] →
    decode (commandWord code) = .ok i ∧
    ∃ t, exec i s = .next t ∧ OutsideRxKept s t ∧ RxbufKept s t ∧
      t.rx = (if s.rx.len = 0 then
          { s.rx with idle := 0, cmd := code, acc := s.rx.acc ^^^ code, state := .readChecksum }
        else { s.rx with idle := 0, cmd := code, acc := s.rx.acc ^^^ code, idx := 0, state := .readPayload })

/-! ## What each operation does: transmit encoder -/

/-- A request accepted (R142, R145) and a request refused (R143). -/
def Obligations.TxRequestsComplete : Prop :=
  ∀ (s : State) (f c : Byte) (n : Half),
    (∃ t, exec (.txReq f c n) s = .next t ∧
      t = { s with tx := { state := .start, flags := if s.csr.txResp then f ||| 0x04 else f, len := n, cmd := c,
                           cnt := 0, acc := 0x00 } } ∧ RxbufKept s t) ∧
    (∃ t, exec (.txReqRefuse n) s = .next t ∧ t = { s with event := s.event ||| 0b01000 } ∧ RxbufKept s t)

/-- The emitted header bytes and the checksum byte (R146 to R149, R152): the byte sent, the checksum so far, the next state. -/
def Obligations.TxHeaderAndChecksumBytesComplete : Prop :=
  ∀ s : State,
    (∃ t, exec .txEmitStart s = .next t ∧ t.out.txValid = true ∧ t.out.txData = 0xAA ∧
      t.tx = { s.tx with state := .flags } ∧ OutsideTxKept s t ∧ RxbufKept s t) ∧
    (∃ t, exec .txEmitFlags s = .next t ∧ t.out.txValid = true ∧ t.out.txData = s.tx.flags ∧
      t.tx = { s.tx with acc := s.tx.acc ^^^ s.tx.flags, state := .lenLo } ∧ OutsideTxKept s t ∧ RxbufKept s t) ∧
    (∃ t, exec .txEmitLenLo s = .next t ∧ t.out.txValid = true ∧ t.out.txData = s.tx.len.extractLsb' 0 8 ∧
      t.tx = { s.tx with acc := s.tx.acc ^^^ s.tx.len.extractLsb' 0 8, state := .lenHi } ∧
      OutsideTxKept s t ∧ RxbufKept s t) ∧
    (∃ t, exec .txEmitLenHi s = .next t ∧ t.out.txValid = true ∧ t.out.txData = s.tx.len.extractLsb' 8 8 ∧
      t.tx = { s.tx with acc := s.tx.acc ^^^ s.tx.len.extractLsb' 8 8, state := .cmd } ∧
      OutsideTxKept s t ∧ RxbufKept s t) ∧
    (∃ t, exec .txEmitChk s = .next t ∧ t.out.txValid = true ∧ t.out.txData = s.tx.acc ∧
      t.tx = { s.tx with state := .idle } ∧ OutsideTxKept s t ∧ RxbufKept s t)

/-- The emitted command byte (R150) and payload byte (R151). -/
def Obligations.TxCommandAndPayloadBytesComplete : Prop :=
  ∀ (s : State) (p : Byte),
    (∃ t, exec .txEmitCmd s = .next t ∧ t.out.txValid = true ∧ t.out.txData = s.tx.cmd ∧
      t.tx = (if s.tx.len = 0 then { s.tx with acc := s.tx.acc ^^^ s.tx.cmd, state := .chk }
        else { s.tx with acc := s.tx.acc ^^^ s.tx.cmd, cnt := 0, state := .payload }) ∧
      OutsideTxKept s t ∧ RxbufKept s t) ∧
    (∃ t, exec (.txEmitPayload p) s = .next t ∧ t.out.txValid = true ∧ t.out.txData = p ∧
      t.tx = { s.tx with
        acc := s.tx.acc ^^^ p, cnt := s.tx.cnt + 1,
        state := if s.tx.cnt.toNat + 1 = s.tx.len.toNat then .chk else s.tx.state } ∧
      OutsideTxKept s t ∧ RxbufKept s t)

/-! ## What each operation does: mapper and scaler -/

/-- `CFG_VALID` (R192): its formula, its place in `STATUS`, and the error of every request accepted while it is 0. -/
def Obligations.CfgValidIsTheGeometryCheck : Prop :=
  ∀ s : State,
    (cfgValid s = true ↔
      (1 ≤ stripsOf s ∧ stripsOf s ≤ 16 ∧ widthOf s ≥ 1 ∧ stripsOf s * widthOf s ≤ 65535) ∧
        (match s.csr.mode with
          | .strip => True
          | .flat => True
          | .folded => widthOf s % 2 = 0
          | .reserved => False)) ∧
    (statusWord s).getLsbD 8 = cfgValid s ∧
    (cfgValid s = false → ∀ (strip : Byte) (l : Half), ∃ t, exec (.mapAccept strip l) s = .next t ∧
      t.map.err = 0x0B)

/-- An accepted request (R194) latches the geometry and then does what the row does that the decoder reads from
`{MAP_MODE, map_req_strip}` and `CFG_VALID` (R102); a beat is presented from the next cycle. -/
def Obligations.MapAcceptAppliesTheDecodedRow : Prop :=
  ∀ (s : State) (strip : Byte) (l : Half), ∃ (i : Instr) (t : State),
    decode (mapWord .mapRow (mapModeBits s.csr.mode) strip l (cfgValid s)) = .ok i ∧
    exec (.mapAccept strip l) s = .next t ∧
    exec i { s with map := { s.map with w := s.csr.physWidth, n := s.csr.stripCount } } = .next t ∧
    t.map.valid = true ∧ t.map.w = s.csr.physWidth ∧ t.map.n = s.csr.stripCount ∧ OutsideMapKept s t ∧ RxbufKept s t

/-- Strip mode under a valid geometry (R196, R197): the position is the logical index and the address is flat; out of range,
the error beat 0x04 with `EVENT.MAPERR`. -/
def Obligations.MapStripRowsComplete : Prop :=
  ∀ (s : State) (strip : Byte) (l : Half), s.csr.mode = .strip → cfgValid s = true →
    (∃ t, exec (.mapStrip strip l) s = .next t ∧ OutsideMapKept s t ∧ RxbufKept s t ∧
      (if strip.toNat ≥ stripsOf s ∨ l.toNat ≥ widthOf s then
        Presents t.map s.map.w s.map.n { strip := 0, pos := 0, addr := 0, last := true, err := 0x04 } ∧
          t.event = s.event ||| 0b10000
      else
        Presents t.map s.map.w s.map.n
          { strip := strip.toNat, pos := l.toNat, addr := strip.toNat * widthOf s + l.toNat, last := true, err := 0 } ∧
          t.event = s.event)) ∧
    (∃ t, exec (.mapStripBcast l) s = .next t ∧ OutsideMapKept s t ∧ RxbufKept s t ∧
      (if l.toNat ≥ widthOf s then
        Presents t.map s.map.w s.map.n { strip := 0, pos := 0, addr := 0, last := true, err := 0x04 } ∧
          t.event = s.event ||| 0b10000
      else
        Presents t.map s.map.w s.map.n
          { strip := 0, pos := l.toNat, addr := l.toNat, last := decide (stripsOf s = 1), err := 0 } ∧
          t.event = s.event))

/-- The matrix modes under a valid geometry (R199, R200): row-major in flat mode, every odd logical row reversed onto the
second half of its strip in folded mode; out of range, the error beat 0x04 with `EVENT.MAPERR`. -/
def Obligations.MapMatrixRowsComplete : Prop :=
  ∀ (s : State) (strip : Byte) (l : Half) (w n : Nat), w = widthOf s → n = stripsOf s → cfgValid s = true →
    (s.csr.mode = .flat → ∃ t, exec (.mapFlat strip l) s = .next t ∧ OutsideMapKept s t ∧ RxbufKept s t ∧
      (if l.toNat ≥ w * n then
        Presents t.map s.map.w s.map.n { strip := 0, pos := 0, addr := 0, last := true, err := 0x04 } ∧
          t.event = s.event ||| 0b10000
      else
        Presents t.map s.map.w s.map.n
          { strip := l.toNat / w, pos := l.toNat % w, addr := l.toNat / w * w + l.toNat % w, last := true, err := 0 } ∧
          t.event = s.event)) ∧
    (s.csr.mode = .folded → ∃ t, exec (.mapFold strip l) s = .next t ∧ OutsideMapKept s t ∧ RxbufKept s t ∧
      (if l.toNat ≥ w / 2 * (2 * n) then
        Presents t.map s.map.w s.map.n { strip := 0, pos := 0, addr := 0, last := true, err := 0x04 } ∧
          t.event = s.event ||| 0b10000
      else
        ∃ row col pos, row = l.toNat / (w / 2) ∧ col = l.toNat % (w / 2) ∧
          pos = (if row % 2 = 0 then col else w - 1 - col) ∧
          Presents t.map s.map.w s.map.n
            { strip := row / 2, pos := pos, addr := row / 2 * w + pos, last := true, err := 0 } ∧
          t.event = s.event))

/-- The configuration error (R195) is the row of every request while `CFG_VALID` is 0; the row of the reserved mode acts as it,
and mode 3 never gets past that check (R201): an empty error beat 0x0B and `EVENT.MAPERR`, whatever the operands. -/
def Obligations.MapConfigurationErrorsComplete : Prop :=
  ∀ (s : State) (strip : Byte) (l : Half) (i : Instr), i = .mapCfgErr strip l ∨ i = .mapRsvd strip l →
    (∃ t, exec i s = .next t ∧ OutsideMapKept s t ∧ RxbufKept s t ∧
      Presents t.map s.map.w s.map.n { strip := 0, pos := 0, addr := 0, last := true, err := 0x0B } ∧
      t.event = s.event ||| 0b10000) ∧
    (∀ mode : BitVec 2, decode (mapWord .mapRow mode strip l false) = .ok (.mapCfgErr strip l)) ∧
    decode (mapWord .mapRow 3 strip l true) = .ok (.mapRsvd strip l) ∧
    (s.csr.mode = .reserved → cfgValid s = false)

/-- A beat taken (R202): the last one ends the request and keeps the other beat registers; any other loads the
continuation beat of R198, each value modulo its register's width (R12). -/
def Obligations.MapBeatsComplete : Prop :=
  ∀ s : State,
    (∃ t, exec .mapBcastNext s = .next t ∧ OutsideMapKept s t ∧ RxbufKept s t ∧ t.event = s.event ∧
      t.map = { s.map with
        valid := true, strip := s.map.strip + 1, addr := s.map.addr + s.map.w,
        last := decide (s.map.strip.toNat + 2 = s.map.n.toNat), err := 0 }) ∧
    (∃ t, exec .mapBeat s = .next t ∧ OutsideMapKept s t ∧ RxbufKept s t ∧ t.event = s.event ∧
      (s.map.last = true → t.map = { s.map with valid := false }) ∧
      (s.map.last = false → exec .mapBcastNext s = .next t))

/-- An accepted request gives a beat without error, or one error beat (R203, R267 (d)): 0x0B exactly when the geometry is
invalid, else 0x04; last, and empty; `EVENT.MAPERR` set, and nothing else changed. -/
def Obligations.ErrorBeatsAreEmptyAndLast : Prop :=
  ∀ (s : State) (strip : Byte) (l : Half), ∃ t, exec (.mapAccept strip l) s = .next t ∧ OutsideMapKept s t ∧
    RxbufKept s t ∧ (cfgValid s = false ↔ t.map.err = 0x0B) ∧
    ((t.map.err = 0 ∧ t.event = s.event) ∨
      ((t.map.err = 0x04 ∨ t.map.err = 0x0B) ∧ t.event = s.event ||| 0b10000 ∧
        Presents t.map s.csr.physWidth s.csr.stripCount
          { strip := 0, pos := 0, addr := 0, last := true, err := t.map.err }))

/-- A beat without error names a pixel of the geometry (R71, R196 to R200): its strip and position are in range, its address is
`strip * W + pos`, and that is below `N * W`. -/
def Obligations.MappedPixelIsInRange : Prop :=
  ∀ (s t : State) (strip : Byte) (l : Half), exec (.mapAccept strip l) s = .next t → t.map.err = 0 →
    t.map.strip.toNat < stripsOf s ∧ t.map.pos.toNat < widthOf s ∧
      t.map.addr.toNat = t.map.strip.toNat * widthOf s + t.map.pos.toNat ∧
      t.map.addr.toNat < stripsOf s * widthOf s

/-- In flat matrix mode the map is the identity on `0 .. W * N - 1` (R204). -/
def Obligations.FlatMapIsTheIdentity : Prop :=
  ∀ (s : State) (strip : Byte) (l : Half), s.csr.mode = .flat → cfgValid s = true →
    l.toNat < widthOf s * stripsOf s → ∃ t, exec (.mapAccept strip l) s = .next t ∧ t.map.err = 0 ∧
      t.map.addr = l ∧ t.map.strip.toNat = l.toNat / widthOf s ∧ t.map.pos.toNat = l.toNat % widthOf s

/-- In folded matrix mode the map is a bijection of `0 .. W * N - 1` onto itself, R205 gives its inverse, and logical rows `2k`
and `2k + 1` lie on strip `k`, the one forward from its start and the other backward from its end. -/
def Obligations.FoldedMapIsABijection : Prop :=
  ∀ (s : State) (strip : Byte), s.csr.mode = .folded → cfgValid s = true →
    (∀ l : Half, l.toNat < widthOf s * stripsOf s → ∃ t, exec (.mapAccept strip l) s = .next t ∧ t.map.err = 0 ∧
      t.map.addr.toNat < widthOf s * stripsOf s ∧ unfoldIndex (widthOf s) t.map.addr.toNat = l.toNat) ∧
    (∀ (l : Half) (k c : Nat), l.toNat < widthOf s * stripsOf s → c < widthOf s / 2 →
      (l.toNat = 2 * k * (widthOf s / 2) + c → ∃ t, exec (.mapAccept strip l) s = .next t ∧
        t.map.strip.toNat = k ∧ t.map.pos.toNat = c) ∧
      (l.toNat = (2 * k + 1) * (widthOf s / 2) + c → ∃ t, exec (.mapAccept strip l) s = .next t ∧
        t.map.strip.toNat = k ∧ t.map.pos.toNat = widthOf s - 1 - c)) ∧
    (∀ a : Half, a.toNat < widthOf s * stripsOf s → ∃ (l : Half) (t : State),
      l.toNat = unfoldIndex (widthOf s) a.toNat ∧ l.toNat < widthOf s * stripsOf s ∧
        exec (.mapAccept strip l) s = .next t ∧ t.map.err = 0 ∧ t.map.addr = a)

/-- A broadcast gives one beat for each strip, in ascending order, from the geometry latched at acceptance, whatever
registers are written meanwhile (R197, R198, R289): `ws` are writes, one in each cycle from the acceptance on. -/
def Obligations.BroadcastVisitsEveryStripInOrder : Prop :=
  ∀ (s : State) (l : Half) (ws : List (BitVec 4 × Half)), s.csr.mode = .strip → cfgValid s = true →
    l.toNat < widthOf s → s.map.valid = false → ws.length = stripsOf s + 1 →
      takenBeats (stripsOf s + 1) (s.fed (ws.mapIdx fun k w =>
        { mapReqValid := decide (k = 0), mapReqStrip := 0xFF, mapReqIndex := l, mapRspReady := true,
          csrValid := true, csrWe := true, csrAddr := w.1, csrWdata := w.2 })) =
        (List.range (stripsOf s)).map fun k =>
          { strip := k, pos := l.toNat, addr := k * widthOf s + l.toNat, last := decide (k + 1 = stripsOf s), err := 0 }

/-- The scaler (R206): its word has no selector bit, its result stands exactly on `scale_out`, and nothing else changes. -/
def Obligations.ScaleIsExact : Prop :=
  ∀ (s : State) (v : Byte), decode { port := .scale, word := 0, cond := false, operand := v.setWidth 32 } = .ok (.scale v) ∧
    ∃ t, exec (.scale v) s = .next t ∧
    t = { s with out := { s.out with scaleOut := t.out.scaleOut } } ∧ RxbufKept s t ∧
      t.out.scaleOut.toNat = v.toNat * (s.csr.brightness.toNat + 1) / 256

/-- The properties of the scaler (R207). -/
def Obligations.ScaleProperties : Prop :=
  (∀ v : Byte, scaleValue v 255 = v) ∧ (∀ v : Byte, scaleValue v 0 = 0) ∧
  (∀ v b : Byte, scaleValue v b ≤ v) ∧
  (∀ v v' b b' : Byte, v ≤ v' → b ≤ b' → scaleValue v b ≤ scaleValue v' b') ∧
  (∀ b : Byte, scaleValue 0 b = 0)

/-! ## What each operation does: registers and reset -/

/-- The sixteen register reads (R222 to R248): the selector word of each, the word read, field by field, and no other change
(R77). -/
def Obligations.RegisterReadsComplete : Prop :=
  ∀ s : State,
    (∀ (i : Instr) (addr : BitVec 4) (d : Half),
      (i, addr) ∈ [(Instr.csrRdCtrl, (0x0 : BitVec 4)), (.csrRdMaxPayload, 0x1), (.csrRdChkerrCnt, 0x2), (.csrRdEvent, 0x3),
        (.csrRdIrqEn, 0x4), (.csrRdStatus, 0x5), (.csrRdMapMode, 0x6), (.csrRdPhysWidth, 0x7), (.csrRdStripCount, 0x8),
        (.csrRdBrightness, 0x9), (.csrRdMatrixWidth, 0xA), (.csrRdMatrixHeight, 0xB), (.csrRdLastDrop, 0xC),
        (.csrRdRsvdD, 0xD), (.csrRdRsvdE, 0xE), (.csrRdRsvdF, 0xF)] →
      decode (csrWord false addr d) = .ok i) ∧
    (∃ t, exec .csrRdCtrl s = .next t ∧ OnlyReadData ((0 : BitVec 15) ++ BitVec.ofBool s.csr.txResp) s t) ∧
    (∃ t, exec .csrRdMaxPayload s = .next t ∧ OnlyReadData ((0 : BitVec 5) ++ s.csr.maxPayload) s t) ∧
    (∃ t, exec .csrRdChkerrCnt s = .next t ∧ OnlyReadData s.rx.chkErr s t) ∧
    (∃ t, exec .csrRdEvent s = .next t ∧ OnlyReadData ((0 : BitVec 11) ++ s.event) s t) ∧
    (∃ t, exec .csrRdIrqEn s = .next t ∧ OnlyReadData ((0 : BitVec 10) ++ s.csr.irqEn) s t) ∧
    (∃ t, exec .csrRdStatus s = .next t ∧ OnlyReadData ((0 : BitVec 7) ++ (BitVec.ofBool (cfgValid s) ++
      (BitVec.ofBool s.map.valid ++ (txStateBits s.tx.state ++ (BitVec.ofBool s.rx.pending ++
        rxStateBits s.rx.state))))) s t) ∧
    (∃ t, exec .csrRdMapMode s = .next t ∧ OnlyReadData ((0 : BitVec 14) ++ mapModeBits s.csr.mode) s t) ∧
    (∃ t, exec .csrRdPhysWidth s = .next t ∧ OnlyReadData s.csr.physWidth s t) ∧
    (∃ t, exec .csrRdStripCount s = .next t ∧ OnlyReadData ((0 : BitVec 11) ++ s.csr.stripCount) s t) ∧
    (∃ t, exec .csrRdBrightness s = .next t ∧ OnlyReadData ((0 : BitVec 8) ++ s.csr.brightness) s t) ∧
    (∃ t, exec .csrRdMatrixWidth s = .next t ∧ OnlyReadData t.out.csrRdata s t ∧
      t.out.csrRdata.toNat = if cfgValid s = true ∧ s.csr.mode = .flat then widthOf s
        else if cfgValid s = true ∧ s.csr.mode = .folded then widthOf s / 2 else 0) ∧
    (∃ t, exec .csrRdMatrixHeight s = .next t ∧ OnlyReadData t.out.csrRdata s t ∧
      t.out.csrRdata.toNat = if cfgValid s = true ∧ s.csr.mode = .flat then stripsOf s
        else if cfgValid s = true ∧ s.csr.mode = .folded then stripsOf s * 2 else 0) ∧
    (∃ t, exec .csrRdLastDrop s = .next t ∧ OnlyReadData ((0 : BitVec 8) ++ s.rx.lastDrop) s t) ∧
    (∀ i : Instr, i = .csrRdRsvdD ∨ i = .csrRdRsvdE ∨ i = .csrRdRsvdF →
      ∃ t, exec i s = .next t ∧ OnlyReadData 0x0000 s t)

/-- The register writes that store (R223, R225, R229, R231, R235, R237, R239, R241): the low bits of the data go to the
field, `MAX_PAYLOAD` clamps to `RXBUF_CAP`, `EVENT` clears the bits written as 1, and nothing else changes. -/
def Obligations.RegisterWritesComplete : Prop :=
  ∀ (s : State) (d : Half),
    (∃ t, exec (.csrWrCtrl d) s = .next t ∧ OnlyConfig { s.csr with txResp := d.getLsbD 0 } s t) ∧
    (∃ t, exec (.csrWrMaxPayload d) s = .next t ∧ OnlyConfig { s.csr with maxPayload := t.csr.maxPayload } s t ∧
      (LegalParams s.cfg → t.csr.maxPayload.toNat = min d.toNat s.cfg.rxbufCap)) ∧
    (∃ t, exec (.csrWrEvent d) s = .next t ∧ RxbufKept s t ∧
      t = { s with event := s.event &&& ~~~ d.extractLsb' 0 5, out := { s.out with csrRdata := 0 } }) ∧
    (∃ t, exec (.csrWrIrqEn d) s = .next t ∧ OnlyConfig { s.csr with irqEn := d.extractLsb' 0 6 } s t) ∧
    (∃ t, exec (.csrWrMapMode d) s = .next t ∧ OnlyConfig { s.csr with mode := t.csr.mode } s t ∧
      mapModeBits t.csr.mode = d.extractLsb' 0 2) ∧
    (∃ t, exec (.csrWrPhysWidth d) s = .next t ∧ OnlyConfig { s.csr with physWidth := d } s t) ∧
    (∃ t, exec (.csrWrStripCount d) s = .next t ∧ OnlyConfig { s.csr with stripCount := d.extractLsb' 0 5 } s t) ∧
    (∃ t, exec (.csrWrBrightness d) s = .next t ∧ OnlyConfig { s.csr with brightness := d.extractLsb' 0 8 } s t)

/-- The register writes that are ignored, each with its word (R227, R233, R243, R245, R247, R249), and the cycle without an
access (R250): `csr_rdata` is 0, and nothing else changes. -/
def Obligations.IgnoredWritesComplete : Prop :=
  ∀ (s : State) (d : Half),
    (∀ (i : Instr) (addr : BitVec 4),
      (i, addr) ∈ [(Instr.csrWrChkerrCnt d, (0x2 : BitVec 4)), (.csrWrStatus d, 0x5), (.csrWrMatrixWidth d, 0xA),
        (.csrWrMatrixHeight d, 0xB), (.csrWrLastDrop d, 0xC), (.csrWrRsvdD d, 0xD), (.csrWrRsvdE d, 0xE),
        (.csrWrRsvdF d, 0xF)] →
      decode (csrWord true addr d) = .ok i ∧ ∃ t, exec i s = .next t ∧ OnlyReadData 0x0000 s t) ∧
    (∃ t, exec .csrIdle s = .next t ∧ OnlyReadData 0x0000 s t)

/-- The reset operation (R281, R282): every element at its value of R65, `RXBUF` unchanged. -/
def Obligations.ResetCompletes : Prop :=
  ∀ s : State, ∃ t, exec .reset s = .next t ∧
    t.rx = { state := .waitStart, acc := 0, flags := 0, len := 0, cmd := 0, chk := 0, idx := 0, idle := 0,
             pending := false, buf := s.rx.buf, plRdQ := 0, chkErr := 0, lastDrop := 0 } ∧
    t.tx = { state := .idle, flags := 0, len := 0, cmd := 0, cnt := 0, acc := 0 } ∧
    t.map = { w := 0, n := 0, valid := false, addr := 0, strip := 0, pos := 0, last := false, err := 0 } ∧
    t.csr = { txResp := true, maxPayload := BitVec.ofNat 11 s.cfg.rxbufCap, irqEn := 0, mode := .strip,
              physWidth := 0, stripCount := 0, brightness := 0xFF } ∧
    t.event = 0 ∧ RxbufKept s t ∧ t.cfg = s.cfg ∧ t.env = s.env ∧ t.held = s.held

/-! ## Whole packets -/

/-- A packet fed byte by byte to a framer in `WaitStart`, its last byte the XOR of its bytes from flags through the last
payload byte, is delivered unchanged (R125, R128): flags, length, command, checksum, and every payload byte in `RXBUF`; no
drop is recorded, and no other unit's registers change. -/
def Obligations.PacketIsDeliveredUnchanged : Prop :=
  ∀ (s : State) (flags cmd : Byte) (payload : List Byte), Inv s → s.rx.state = .waitStart → s.rx.pending = false →
    payload.length ≤ s.csr.maxPayload.toNat →
      ∃ t, runInputs s ((wirePacket flags cmd payload).map byteIn) = .next t ∧
        t.rx.pending = true ∧ t.rx.flags = flags ∧ t.rx.len.toNat = payload.length ∧ t.rx.cmd = cmd ∧
        t.rx.chk = checksumOf flags cmd payload ∧ rxbufBytes t payload.length = payload ∧
        t.rx.chkErr = s.rx.chkErr ∧ t.rx.lastDrop = s.rx.lastDrop ∧ t.rx.state = .waitStart ∧
        t.event = s.event ∧ t.tx = s.tx ∧ t.map = s.map ∧ t.csr = s.csr

/-- Error detection (R132 (a)): of a valid packet whose flags, command, payload and checksum bytes are changed by XOR with
error bytes, the check fails exactly when the XOR of the error bytes is not 0; it then counts, and delivers nothing. -/
def Obligations.ChecksumDetectsErrorsThatDoNotCancel : Prop :=
  ∀ (s : State) (flags cmd ef ec ek : Byte) (payload ep : List Byte), Inv s → s.rx.state = .waitStart →
    s.rx.pending = false → payload.length ≤ s.csr.maxPayload.toNat → ep.length = payload.length →
      ∃ t, runInputs s ((wirePacketWith (flags ^^^ ef) (cmd ^^^ ec) (List.zipWith (· ^^^ ·) payload ep)
          (checksumOf flags cmd payload ^^^ ek)).map byteIn) = .next t ∧ t.rx.state = .waitStart ∧
        (if ef ^^^ ec ^^^ xorBytes ep ^^^ ek ≠ 0 then
          t.rx.pending = false ∧ t.rx.chkErr = s.rx.chkErr + 1 ∧ t.rx.lastDrop = 0x01 ∧
            t.event = s.event ||| 0b00001
        else t.rx.pending = true ∧ t.rx.chkErr = s.rx.chkErr ∧ t.rx.lastDrop = s.rx.lastDrop ∧ t.event = s.event)

/-- Resynchronisation (R133 (i)): a packet so corrupted, directly followed by a valid one, yields exactly the valid one. -/
def Obligations.ValidPacketAfterACorruptedOneIsDelivered : Prop :=
  ∀ (s : State) (flags cmd ef ec ek : Byte) (payload ep : List Byte) (flags' cmd' : Byte) (payload' : List Byte),
    Inv s → s.rx.state = .waitStart → s.rx.pending = false → payload.length ≤ s.csr.maxPayload.toNat →
    ep.length = payload.length → ef ^^^ ec ^^^ xorBytes ep ^^^ ek ≠ 0 → payload'.length ≤ s.csr.maxPayload.toNat →
      ∃ t, runInputs s ((wirePacketWith (flags ^^^ ef) (cmd ^^^ ec) (List.zipWith (· ^^^ ·) payload ep)
          (checksumOf flags cmd payload ^^^ ek) ++ wirePacket flags' cmd' payload').map byteIn) = .next t ∧
        t.rx.pending = true ∧ t.rx.flags = flags' ∧ t.rx.len.toNat = payload'.length ∧ t.rx.cmd = cmd' ∧
        rxbufBytes t payload'.length = payload' ∧ t.rx.chkErr = s.rx.chkErr + 1

/-- The inter-byte timeout (R113, R134), in ticks: outside `WaitStart`, a partial packet survives `TIMEOUT_TICKS` ticks after
its last byte and is discarded by the next one. -/
def Obligations.TimeoutComesOneTickAfterTheLimit : Prop :=
  ∀ s : State, timeoutRuns s.rx.state = true → s.rx.idle = 0 →
    (∀ k, k ≤ s.cfg.timeoutTicks → ∃ t, runInputs s (List.replicate k tickIn) = .next t ∧
      t.rx = { s.rx with idle := k } ∧ t.event = s.event) ∧
    (∃ t, runInputs s (List.replicate (s.cfg.timeoutTicks + 1) tickIn) = .next t ∧
      t.rx = { s.rx with idle := s.cfg.timeoutTicks + 1, state := .waitStart, lastDrop := 0x09 } ∧
      t.event = s.event ||| 0b00100)

/-- An accepted request is sent as exactly `6 + n` bytes in `7 + n` cycles, the acceptance among them (R145, R153, R293), and
the encoder is idle again. -/
def Obligations.RequestIsSentAsItsPacket : Prop :=
  ∀ (s : State) (flags cmd : Byte) (payload : List Byte), Inv s → s.tx.state = .idle →
    payload.length ≤ s.csr.maxPayload.toNat →
      sentBytes (7 + payload.length) (s.fed (transmission flags cmd payload)) =
        wirePacket (if s.csr.txResp then flags ||| 0x04 else flags) cmd payload ∧
      ∃ t, runInputs s (transmission flags cmd payload) = .next t ∧ t.tx.state = .idle ∧ t.event = s.event

/-- The round trip (R154): what one block sends for a request, fed to another block's framer in `WaitStart`, is delivered as
one packet, equal to the request but for the response bit. -/
def Obligations.RoundTripDeliversTheRequest : Prop :=
  ∀ (s r : State) (flags cmd : Byte) (payload : List Byte), Inv s → Inv r → s.tx.state = .idle →
    r.rx.state = .waitStart → r.rx.pending = false → payload.length ≤ s.csr.maxPayload.toNat →
    payload.length ≤ r.csr.maxPayload.toNat →
      ∃ t, runInputs r ((sentBytes (7 + payload.length) (s.fed (transmission flags cmd payload))).map byteIn) = .next t ∧
        t.rx.pending = true ∧ t.rx.flags = (if s.csr.txResp then flags ||| 0x04 else flags) ∧
        t.rx.len.toNat = payload.length ∧ t.rx.cmd = cmd ∧ rxbufBytes t payload.length = payload
end

