-- ==== Sys2Proof/Laws/Decode.lean ====
section
/-! SUPPORT. What the decoder reads from the words the ports present: the fields of a packed word are the parts it was
packed from, and each port's word decodes to the operation its parts name. -/

namespace Sys2Proof

theorem toNat_append_add {n m : Nat} (x : BitVec n) (y : BitVec m) :
    (x ++ y).toNat = x.toNat * 2 ^ m + y.toNat := by
  rw [BitVec.toNat_append, ← Nat.shiftLeft_add_eq_or_of_lt y.isLt, Nat.shiftLeft_eq]

/-! ## Fields of packed words -/

theorem toNat_rxSelector (st : BitVec 3) (b : Byte) :
    ((st ++ b).setWidth 16).toNat = st.toNat * 256 + b.toNat := by
  have := st.isLt
  have := b.isLt
  simp only [BitVec.toNat_setWidth, toNat_append_add]
  omega

theorem lowByte_rxSelector (st : BitVec 3) (b : Byte) : lowByte ((st ++ b).setWidth 16) = b := by
  apply BitVec.eq_of_toNat_eq
  have := st.isLt
  have := b.isLt
  simp only [lowByte, BitVec.toNat_setWidth, toNat_append_add]
  omega

theorem rxStateField_rxSelector (st : BitVec 3) (b : Byte) : rxStateField ((st ++ b).setWidth 16) = st.toNat := by
  have := st.isLt
  have := b.isLt
  simp only [rxStateField, BitVec.extractLsb'_toNat, BitVec.toNat_setWidth, toNat_append_add,
    Nat.shiftRight_eq_div_pow]
  omega

theorem toNat_mapSelector (mode : BitVec 2) (strip : Byte) :
    ((mode ++ strip).setWidth 16).toNat = mode.toNat * 256 + strip.toNat := by
  have := mode.isLt
  have := strip.isLt
  simp only [BitVec.toNat_setWidth, toNat_append_add]
  omega

theorem lowByte_mapSelector (mode : BitVec 2) (strip : Byte) : lowByte ((mode ++ strip).setWidth 16) = strip := by
  apply BitVec.eq_of_toNat_eq
  have := mode.isLt
  have := strip.isLt
  simp only [lowByte, BitVec.toNat_setWidth, toNat_append_add]
  omega

theorem mapModeField_mapSelector (mode : BitVec 2) (strip : Byte) :
    mapModeField ((mode ++ strip).setWidth 16) = mode.toNat := by
  have := mode.isLt
  have := strip.isLt
  simp only [mapModeField, BitVec.extractLsb'_toNat, BitVec.toNat_setWidth, toNat_append_add,
    Nat.shiftRight_eq_div_pow]
  omega

theorem toNat_csrSelector (we : Bool) (addr : BitVec 4) :
    ((BitVec.ofBool we ++ addr).setWidth 16).toNat = (if we then 16 else 0) + addr.toNat := by
  have := addr.isLt
  simp only [BitVec.toNat_setWidth, toNat_append_add]
  cases we <;> simp <;> omega

theorem operandHalf_setWidth (l : Half) : operandHalf (l.setWidth 32) = l := by simp [operandHalf]

theorem operandByte_setWidth (p : Byte) : operandByte (p.setWidth 32) = p := by simp [operandByte]

theorem txReqOperand_flags (f c : Byte) (n : Half) : operandByte (txReqOperand f c n) = f := by
  have := f.isLt
  have := c.isLt
  have := n.isLt
  apply BitVec.eq_of_toNat_eq
  simp only [txReqOperand, operandByte, BitVec.toNat_setWidth, toNat_append_add]
  omega

theorem txReqOperand_cmd (f c : Byte) (n : Half) : (txReqOperand f c n).extractLsb' 8 8 = c := by
  have := f.isLt
  have := c.isLt
  have := n.isLt
  apply BitVec.eq_of_toNat_eq
  simp only [txReqOperand, BitVec.extractLsb'_toNat, toNat_append_add, Nat.shiftRight_eq_div_pow]
  omega

theorem txReqOperand_len (f c : Byte) (n : Half) : (txReqOperand f c n).extractLsb' 16 16 = n := by
  have := f.isLt
  have := c.isLt
  have := n.isLt
  apply BitVec.eq_of_toNat_eq
  simp only [txReqOperand, BitVec.extractLsb'_toNat, toNat_append_add, Nat.shiftRight_eq_div_pow]
  omega

/-! ## The words of the ports -/

/-- A selector word within its width decodes by its port's table. -/
theorem decode_of_fits (w : OpWord) (h : w.word.toNat < 2 ^ w.port.width) :
    decode w = decodePort w.port w.word w.cond w.operand := by
  unfold decode
  rw [if_neg (by omega)]

@[simp] theorem decode_rxWord (st : BitVec 3) (b : Byte) (c : Bool) :
    decode (rxWord st b c) = .ok (decodeRxByte st.toNat b c) := by
  have hs := st.isLt
  have hb := b.isLt
  rw [decode_of_fits _ (by simp only [rxWord, toNat_rxSelector, Port.width]; omega)]
  simp only [rxWord, decodePort, rxStateField_rxSelector, lowByte_rxSelector]

@[simp] theorem decode_mapAcceptWord (mode : BitVec 2) (strip : Byte) (l : Half) (c : Bool) :
    decode (mapWord .mapReq mode strip l c) = .ok (.mapAccept strip l) := by
  have hm := mode.isLt
  have hs := strip.isLt
  rw [decode_of_fits _ (by simp only [mapWord, toNat_mapSelector, Port.width]; omega)]
  simp only [mapWord, decodePort, lowByte_mapSelector, operandHalf_setWidth]

@[simp] theorem decode_mapRowWord (mode : BitVec 2) (strip : Byte) (l : Half) (c : Bool) :
    decode (mapWord .mapRow mode strip l c) = .ok (decodeMapRow mode.toNat strip l c) := by
  have hm := mode.isLt
  have hs := strip.isLt
  rw [decode_of_fits _ (by simp only [mapWord, toNat_mapSelector, Port.width]; omega)]
  simp only [mapWord, decodePort, lowByte_mapSelector, mapModeField_mapSelector, operandHalf_setWidth]

@[simp] theorem decode_csrWord (we : Bool) (addr : BitVec 4) (d : Half) :
    decode (csrWord we addr d) = .ok (decodeCsr ((if we then 16 else 0) + addr.toNat) d) := by
  have ha := addr.isLt
  rw [decode_of_fits _ (by simp only [csrWord, toNat_csrSelector, Port.width]; cases we <;> simp <;> omega)]
  simp only [csrWord, decodePort, toNat_csrSelector, operandHalf_setWidth]

@[simp] theorem decode_txWord (st : BitVec 3) (p : Byte) : decode (txWord st p) = decodeTxByte st.toNat p := by
  have hs := st.isLt
  have e : (st.setWidth 16).toNat = st.toNat := by simp only [BitVec.toNat_setWidth]; omega
  rw [decode_of_fits _ (by simp only [txWord, e, Port.width]; omega)]
  simp only [txWord, decodePort, e, operandByte_setWidth]

@[simp] theorem decode_commandWord (code : Byte) : decode (commandWord code) = decodeCommand code.toNat := by
  have hc := code.isLt
  have e : (code.setWidth 16).toNat = code.toNat := by simp only [BitVec.toNat_setWidth]; omega
  rw [decode_of_fits _ (by simp only [commandWord, e, Port.width]; omega)]
  simp only [commandWord, decodePort, e]

@[simp] theorem decode_scaleWord (v : Byte) :
    decode { port := .scale, word := 0, cond := false, operand := v.setWidth 32 } = .ok (.scale v) := by
  rw [decode_of_fits _ (by simp [Port.width])]
  simp only [decodePort, operandByte_setWidth]

@[simp] theorem decode_plRdWord (a : BitVec 10) :
    decode { signalWord .plRd with operand := a.setWidth 32 } = .ok (.plRd a) := by
  rw [decode_of_fits _ (by simp [signalWord, Port.width])]
  simp [signalWord, decodePort, decodeSignal]

@[simp] theorem decode_txReqWord (c : Bool) (f cmd : Byte) (n : Half) (h : c = false → n ≠ 0) :
    decode { signalWord .txReq with cond := c, operand := txReqOperand f cmd n } =
      .ok (if c then .txReq f cmd n else .txReqRefuse n) := by
  rw [decode_of_fits _ (by simp [signalWord, Port.width])]
  cases c
  · have hn : ¬ n = 0 := h rfl
    simp only [decodePort, txReqOperand_len, if_neg hn]
    rfl
  · simp only [decodePort, txReqOperand_flags, txReqOperand_cmd, txReqOperand_len]
    rfl

@[simp] theorem decode_tickWord : decode (signalWord .tick) = .ok .rxTick := rfl
@[simp] theorem decode_timeoutWord : decode (signalWord .timeout) = .ok .rxTimeout := rfl
@[simp] theorem decode_ackWord : decode (signalWord .pktAck) = .ok .pktAck := rfl
@[simp] theorem decode_mapRspWord : decode (signalWord .mapRsp) = .ok .mapBeat := rfl
@[simp] theorem decode_mapNextWord : decode (signalWord .mapNext) = .ok .mapBcastNext := rfl
@[simp] theorem decode_rstWord : decode (signalWord .rst) = .ok .reset := rfl
@[simp] theorem decode_csrIdleWord :
    decode { port := .csrIdle, word := 0, cond := false, operand := 0 } = .ok .csrIdle := rfl

theorem decodeAll_append (xs ys : List OpWord) (is js : List Instr) (hx : decodeAll xs = .ok is)
    (hy : decodeAll ys = .ok js) : decodeAll (xs ++ ys) = .ok (is ++ js) := by
  induction xs generalizing is with
  | nil =>
    simp only [decodeAll, Except.ok.injEq] at hx
    simp [← hx, hy]
  | cons w xs ih =>
    simp only [decodeAll, List.cons_append] at hx ⊢
    cases hw : decode w with
    | error e => simp [hw] at hx
    | ok i =>
      cases hr : decodeAll xs with
      | error e => simp [hw, hr] at hx
      | ok is' =>
        simp only [hw, hr, Except.ok.injEq] at hx
        simp [ih is' hr, ← hx]

end Sys2Proof
end

