-- ==== Sys2Proof/Laws/State.lean ====
section
/-! SUPPORT. One lemma per field per named update of `State`: a field an update sets reads as set, every other field
reads as before. -/

namespace Sys2Proof.Machine

@[simp] theorem State.setRx_cfg (s : State) (r : RxUnit) : (s.setRx r).cfg = s.cfg := rfl
@[simp] theorem State.setRx_rx (s : State) (r : RxUnit) : (s.setRx r).rx = r := rfl
@[simp] theorem State.setRx_tx (s : State) (r : RxUnit) : (s.setRx r).tx = s.tx := rfl
@[simp] theorem State.setRx_map (s : State) (r : RxUnit) : (s.setRx r).map = s.map := rfl
@[simp] theorem State.setRx_csr (s : State) (r : RxUnit) : (s.setRx r).csr = s.csr := rfl
@[simp] theorem State.setRx_event (s : State) (r : RxUnit) : (s.setRx r).event = s.event := rfl
@[simp] theorem State.setRx_out (s : State) (r : RxUnit) : (s.setRx r).out = s.out := rfl
@[simp] theorem State.setRx_env (s : State) (r : RxUnit) : (s.setRx r).env = s.env := rfl
@[simp] theorem State.setRx_held (s : State) (r : RxUnit) : (s.setRx r).held = s.held := rfl

@[simp] theorem State.setTx_cfg (s : State) (t : TxUnit) : (s.setTx t).cfg = s.cfg := rfl
@[simp] theorem State.setTx_rx (s : State) (t : TxUnit) : (s.setTx t).rx = s.rx := rfl
@[simp] theorem State.setTx_tx (s : State) (t : TxUnit) : (s.setTx t).tx = t := rfl
@[simp] theorem State.setTx_map (s : State) (t : TxUnit) : (s.setTx t).map = s.map := rfl
@[simp] theorem State.setTx_csr (s : State) (t : TxUnit) : (s.setTx t).csr = s.csr := rfl
@[simp] theorem State.setTx_event (s : State) (t : TxUnit) : (s.setTx t).event = s.event := rfl
@[simp] theorem State.setTx_out (s : State) (t : TxUnit) : (s.setTx t).out = s.out := rfl
@[simp] theorem State.setTx_env (s : State) (t : TxUnit) : (s.setTx t).env = s.env := rfl
@[simp] theorem State.setTx_held (s : State) (t : TxUnit) : (s.setTx t).held = s.held := rfl

@[simp] theorem State.setMap_cfg (s : State) (m : MapUnit) : (s.setMap m).cfg = s.cfg := rfl
@[simp] theorem State.setMap_rx (s : State) (m : MapUnit) : (s.setMap m).rx = s.rx := rfl
@[simp] theorem State.setMap_tx (s : State) (m : MapUnit) : (s.setMap m).tx = s.tx := rfl
@[simp] theorem State.setMap_map (s : State) (m : MapUnit) : (s.setMap m).map = m := rfl
@[simp] theorem State.setMap_csr (s : State) (m : MapUnit) : (s.setMap m).csr = s.csr := rfl
@[simp] theorem State.setMap_event (s : State) (m : MapUnit) : (s.setMap m).event = s.event := rfl
@[simp] theorem State.setMap_out (s : State) (m : MapUnit) : (s.setMap m).out = s.out := rfl
@[simp] theorem State.setMap_env (s : State) (m : MapUnit) : (s.setMap m).env = s.env := rfl
@[simp] theorem State.setMap_held (s : State) (m : MapUnit) : (s.setMap m).held = s.held := rfl

@[simp] theorem State.setCsr_cfg (s : State) (c : CsrUnit) : (s.setCsr c).cfg = s.cfg := rfl
@[simp] theorem State.setCsr_rx (s : State) (c : CsrUnit) : (s.setCsr c).rx = s.rx := rfl
@[simp] theorem State.setCsr_tx (s : State) (c : CsrUnit) : (s.setCsr c).tx = s.tx := rfl
@[simp] theorem State.setCsr_map (s : State) (c : CsrUnit) : (s.setCsr c).map = s.map := rfl
@[simp] theorem State.setCsr_csr (s : State) (c : CsrUnit) : (s.setCsr c).csr = c := rfl
@[simp] theorem State.setCsr_event (s : State) (c : CsrUnit) : (s.setCsr c).event = s.event := rfl
@[simp] theorem State.setCsr_out (s : State) (c : CsrUnit) : (s.setCsr c).out = s.out := rfl
@[simp] theorem State.setCsr_env (s : State) (c : CsrUnit) : (s.setCsr c).env = s.env := rfl
@[simp] theorem State.setCsr_held (s : State) (c : CsrUnit) : (s.setCsr c).held = s.held := rfl

@[simp] theorem State.setEvent_cfg (s : State) (e : BitVec 5) : (s.setEvent e).cfg = s.cfg := rfl
@[simp] theorem State.setEvent_rx (s : State) (e : BitVec 5) : (s.setEvent e).rx = s.rx := rfl
@[simp] theorem State.setEvent_tx (s : State) (e : BitVec 5) : (s.setEvent e).tx = s.tx := rfl
@[simp] theorem State.setEvent_map (s : State) (e : BitVec 5) : (s.setEvent e).map = s.map := rfl
@[simp] theorem State.setEvent_csr (s : State) (e : BitVec 5) : (s.setEvent e).csr = s.csr := rfl
@[simp] theorem State.setEvent_event (s : State) (e : BitVec 5) : (s.setEvent e).event = e := rfl
@[simp] theorem State.setEvent_out (s : State) (e : BitVec 5) : (s.setEvent e).out = s.out := rfl
@[simp] theorem State.setEvent_env (s : State) (e : BitVec 5) : (s.setEvent e).env = s.env := rfl
@[simp] theorem State.setEvent_held (s : State) (e : BitVec 5) : (s.setEvent e).held = s.held := rfl

@[simp] theorem State.setOut_cfg (s : State) (o : Outputs) : (s.setOut o).cfg = s.cfg := rfl
@[simp] theorem State.setOut_rx (s : State) (o : Outputs) : (s.setOut o).rx = s.rx := rfl
@[simp] theorem State.setOut_tx (s : State) (o : Outputs) : (s.setOut o).tx = s.tx := rfl
@[simp] theorem State.setOut_map (s : State) (o : Outputs) : (s.setOut o).map = s.map := rfl
@[simp] theorem State.setOut_csr (s : State) (o : Outputs) : (s.setOut o).csr = s.csr := rfl
@[simp] theorem State.setOut_event (s : State) (o : Outputs) : (s.setOut o).event = s.event := rfl
@[simp] theorem State.setOut_out (s : State) (o : Outputs) : (s.setOut o).out = o := rfl
@[simp] theorem State.setOut_env (s : State) (o : Outputs) : (s.setOut o).env = s.env := rfl
@[simp] theorem State.setOut_held (s : State) (o : Outputs) : (s.setOut o).held = s.held := rfl

end Sys2Proof.Machine
end

