-- ==== Sys2Proof/Laws/Cycle.lean ====
section
/-! SUPPORT. The operations a cycle selects, as a list of instructions: the words of every cycle decode to them, so a step
that breaks no duty runs exactly them. -/

namespace Sys2Proof.Machine

/-! ## Codes -/

theorem rxStateOfBits_rxStateBits (r : RxState) : rxStateOfBits (rxStateBits r) = r := by cases r <;> rfl

theorem mapModeOfBits_mapModeBits (m : MapMode) : mapModeOfBits (mapModeBits m) = m := by cases m <;> rfl

/-! ## The operations of a cycle -/

/-- The register operation of a cycle (R103, R221, R250). -/
def csrOps (i : Inputs) : Instr :=
  if i.csrValid then decodeCsr ((if i.csrWe then 16 else 0) + i.csrAddr.toNat) i.csrWdata else .csrIdle

/-- The register operation run before the units. -/
def csrEarlyOps (i : Inputs) : List Instr := if writesConfig i then [] else [csrOps i]

/-- The register operation run after the units. -/
def csrLateOps (i : Inputs) : List Instr := if writesConfig i then [csrOps i] else []

/-- The payload read of a cycle. -/
def plRdOps (i : Inputs) : List Instr := if i.plRdEn then [.plRd i.plRdAddr] else []

/-- The acknowledge of a cycle. -/
def ackOps (s : State) (i : Inputs) : List Instr := if s.rx.pending && i.pktAck then [.pktAck] else []

/-- The byte or tick of a cycle. -/
def rxOps (s : State) (i : Inputs) : List Instr :=
  if fireRx s i then [decodeRxByte (rxStateBits s.rx.state).toNat i.rxData (rxCondition s i.rxData)]
  else if i.tick then [.rxTick]
  else []

/-- The operation of a byte of the encoder. -/
def txByteOp (t : TxState) (p : Byte) : Instr :=
  match t with
  | .idle => .txEmitStart
  | .start => .txEmitStart
  | .flags => .txEmitFlags
  | .lenLo => .txEmitLenLo
  | .lenHi => .txEmitLenHi
  | .cmd => .txEmitCmd
  | .payload => .txEmitPayload p
  | .chk => .txEmitChk

/-- The request or byte of the encoder in a cycle. -/
def txOps (s : State) (i : Inputs) : List Instr :=
  if fireTxReq s i then
    [if exceedsMax s i.txReqLen then .txReqRefuse i.txReqLen else .txReq i.txReqFlags i.txReqCmd i.txReqLen]
  else if fireTx s i then [txByteOp s.tx.state i.txPlData]
  else []

/-- The request or beat of the mapper in a cycle. -/
def mapOps (s : State) (i : Inputs) : List Instr :=
  if fireMapReq s i then [.mapAccept i.mapReqStrip i.mapReqIndex]
  else if fireMapRsp s i then [.mapBeat]
  else []

/-- Every operation of a cycle, in the order in which they run. -/
def selectedOps (s : State) (i : Inputs) : List Instr :=
  if i.rst then [.scale i.scaleIn, .reset]
  else
    [.scale i.scaleIn] ++ (csrEarlyOps i ++ (plRdOps i ++ (ackOps s i ++ (rxOps s i ++ (txOps s i ++
      (mapOps s i ++ csrLateOps i))))))

theorem decodeAll_single (w : OpWord) (i : Instr) (h : decode w = .ok i) : decodeAll [w] = .ok [i] := by
  simp [decodeAll, h]

theorem decode_csrWordOf (i : Inputs) : decode (csrWordOf i) = .ok (csrOps i) := by
  unfold csrWordOf csrOps
  split
  · exact decode_csrWord _ _ _
  · exact decode_csrIdleWord

theorem fireTx_notIdle {s : State} {i : Inputs} (h : fireTx s i = true) : s.tx.state ≠ .idle := by
  intro hi
  simp [fireTx, txOffers, hi] at h

theorem decodeAll_rxWords (s : State) (i : Inputs) : decodeAll (rxWords s i) = .ok (rxOps s i) := by
  unfold rxWords rxOps
  split
  · exact decodeAll_single _ _ (decode_rxWord _ _ _)
  · split
    · exact decodeAll_single _ _ decode_tickWord
    · rfl

theorem decodeAll_txWords (s : State) (i : Inputs) : decodeAll (txWords s i) = .ok (txOps s i) := by
  unfold txWords txOps
  split
  · apply decodeAll_single
    rw [decode_txReqWord]
    · cases exceedsMax s i.txReqLen <;> rfl
    · intro hx hz
      simp [exceedsMax, hz] at hx
  · split
    · rename_i hf
      apply decodeAll_single
      rw [decode_txWord]
      have := fireTx_notIdle hf
      cases hst : s.tx.state <;> first | rfl | (exact absurd hst this)
    · rfl

theorem decodeAll_mapWords (s : State) (i : Inputs) : decodeAll (mapWords s i) = .ok (mapOps s i) := by
  unfold mapWords mapOps
  split
  · exact decodeAll_single _ _ (decode_mapAcceptWord _ _ _ _)
  · split
    · exact decodeAll_single _ _ decode_mapRspWord
    · rfl

theorem decodeAll_opWords (s : State) (i : Inputs) : decodeAll (opWords s i) = .ok (selectedOps s i) := by
  have hs : decodeAll (scaleWords i) = .ok [.scale i.scaleIn] := decodeAll_single _ _ (decode_scaleWord _)
  unfold opWords selectedOps
  split
  · exact decodeAll_append _ _ _ _ hs (decodeAll_single _ _ decode_rstWord)
  · refine decodeAll_append _ _ _ _ hs (decodeAll_append _ _ _ _ ?_ (decodeAll_append _ _ _ _ ?_
      (decodeAll_append _ _ _ _ ?_ (decodeAll_append _ _ _ _ (decodeAll_rxWords s i)
        (decodeAll_append _ _ _ _ (decodeAll_txWords s i)
          (decodeAll_append _ _ _ _ (decodeAll_mapWords s i) ?_))))))
    · unfold csrEarlyWords csrEarlyOps
      split
      · rfl
      · exact decodeAll_single _ _ (decode_csrWordOf i)
    · unfold plRdWords plRdOps
      split
      · exact decodeAll_single _ _ (decode_plRdWord _)
      · rfl
    · unfold ackWords ackOps
      split
      · exact decodeAll_single _ _ decode_ackWord
      · rfl
    · unfold csrLateWords csrLateOps
      split
      · exact decodeAll_single _ _ (decode_csrWordOf i)
      · rfl

/-- A cycle that breaks no duty runs the operations it selects. -/
theorem cycle_eq_runOps (s : State) (i : Inputs) (h : dutyBroken s i = none) :
    cycle s i = runOps (selectedOps s i) (beginCycle s i) := by
  simp [cycle, h, runWords, decodeAll_opWords]

/-! ## Running operations -/

theorem runOps_append (xs ys : List Instr) (s t : State) (h : runOps xs s = .next t) :
    runOps (xs ++ ys) s = runOps ys t := by
  induction xs generalizing s with
  | nil =>
    simp only [runOps, Host.Outcome.next.injEq] at h
    simp [h]
  | cons i xs ih =>
    simp only [runOps, List.cons_append] at h ⊢
    cases he : exec i s with
    | next u => rw [he] at h; exact ih u h
    | fault f => simp [he] at h
    | refused r => simp [he] at h

theorem runOps_cons_next (i : Instr) (is : List Instr) (s t : State) (h : exec i s = .next t) :
    runOps (i :: is) s = runOps is t := by
  simp [runOps, h]

/-- A cycle breaks no duty exactly when every outstanding offer is kept and a payload byte is offered only where it may be. -/
theorem dutyBroken_none_iff (s : State) (i : Inputs) :
    dutyBroken s i = none ↔ offersKept s i = true ∧ (i.txPlValid = true → payloadOwed s i = true) := by
  cases hk : offersKept s i <;> cases hv : i.txPlValid <;> cases ho : payloadOwed s i <;> simp [dutyBroken, hk, hv, ho]

/-- Every outstanding offer is kept exactly when each channel's is. -/
theorem offersKept_iff (s : State) (i : Inputs) :
    offersKept s i = true ↔
      keepsOffer s.held.rx i.rxValid i.rxData = true ∧
      keepsOffer s.held.txReq i.txReqValid (i.txReqFlags, i.txReqCmd, i.txReqLen) = true ∧
      keepsOffer s.held.txPl i.txPlValid i.txPlData = true ∧
      keepsOffer s.held.mapReq i.mapReqValid (i.mapReqStrip, i.mapReqIndex) = true := by
  simp [offersKept, and_assoc]

/-- Where no offer is outstanding, every offer is kept. -/
theorem offersKept_of_none {s : State} (i : Inputs) (h : s.held = Held.none) : offersKept s i = true := by
  simp [offersKept, h, Held.none, keepsOffer]

/-- The offers left after a cycle, channel by channel: made, and not taken, which in a cycle with `rst = 1` none is. -/
theorem heldAfter_eq (s : State) (i : Inputs) :
    heldAfter s i =
      { rx := if i.rxValid && (i.rst || s.rx.pending) then some i.rxData else none
        txReq := if i.txReqValid && (i.rst || !txIsIdle s) then some (i.txReqFlags, i.txReqCmd, i.txReqLen) else none
        txPl := if i.txPlValid && (i.rst || !txPlReady s i) then some i.txPlData else none
        mapReq := if i.mapReqValid && (i.rst || s.map.valid) then some (i.mapReqStrip, i.mapReqIndex) else none } := by
  simp [heldAfter, offerLeft, outputs]

/-- What a refused cycle answers. -/
theorem cycle_refused {s : State} {i : Inputs} {r : Refusal} (h : dutyBroken s i = some r) : cycle s i = .refused r := by
  simp only [cycle, h]

/-- What a step that answers a next state did: it broke no duty, and its operations ran to that state. -/
theorem step_next_cases {s t : State} (h : step s = .next t) :
    dutyBroken s (currentInputs s) = none ∧
      runOps (selectedOps s (currentInputs s)) (beginCycle s (currentInputs s)) = .next t := by
  unfold step at h
  cases hd : dutyBroken s (currentInputs s) with
  | none => exact ⟨rfl, by rw [← cycle_eq_runOps _ _ hd]; exact h⟩
  | some r => simp [cycle, hd] at h

end Sys2Proof.Machine
end

