-- ==== Sys2Proof/Laws/Memory.lean ====
section
/-! SUPPORT. `RXBUF` as a list of cells: a read after a write, the canonical form every write keeps, and the range of the
listed addresses. -/

namespace Sys2Proof.Machine

theorem Memory.find_write_same (m : List Host.Cell) (a : Nat) (v : Byte) :
    Memory.find (Memory.write m a v) a = some v := by
  induction m with
  | nil => simp [Memory.write, Memory.find]
  | cons c m ih =>
    obtain ⟨k, u⟩ := c
    unfold Memory.write
    split
    · simp [Memory.find]
    · split
      · simp [Memory.find]
      · simp [Memory.find, *]

theorem Memory.find_write_other (m : List Host.Cell) {a k : Nat} (v : Byte) (h : k ≠ a) :
    Memory.find (Memory.write m a v) k = Memory.find m k := by
  induction m with
  | nil => simp [Memory.write, Memory.find, h]
  | cons c m ih =>
    obtain ⟨j, u⟩ := c
    unfold Memory.write
    split
    · simp [Memory.find, h]
    · split
      · rename_i hj
        simp [Memory.find, h, ← hj]
      · simp [Memory.find, ih]

/-- A read after a write to the same address gives the byte written. -/
theorem Memory.read_write_same (m : List Host.Cell) (a : Nat) (v : Byte) :
    Memory.read (Memory.write m a v) a = v := by
  simp [Memory.read, Memory.find_write_same]

/-- A write leaves every other address alone. -/
theorem Memory.read_write_other (m : List Host.Cell) {a k : Nat} (v : Byte) (h : k ≠ a) :
    Memory.read (Memory.write m a v) k = Memory.read m k := by
  simp [Memory.read, Memory.find_write_other m v h]

theorem Memory.risingFrom_write (m : List Host.Cell) (lo a : Nat) (v : Byte) (hm : Memory.risingFrom lo m = true)
    (ha : lo < a) : Memory.risingFrom lo (Memory.write m a v) = true := by
  induction m generalizing lo with
  | nil => simp [Memory.write, Memory.risingFrom, ha]
  | cons c m ih =>
    obtain ⟨k, u⟩ := c
    simp only [Memory.risingFrom, Bool.and_eq_true, decide_eq_true_eq] at hm
    unfold Memory.write
    split
    · simp [Memory.risingFrom, hm.2, *]
    · split
      · rename_i hk
        simp [Memory.risingFrom, hk, hm.1, hm.2]
      · simp only [Memory.risingFrom, Bool.and_eq_true, decide_eq_true_eq]
        exact ⟨hm.1, ih k hm.2 (by omega)⟩

/-- Every write keeps the canonical form. -/
theorem Memory.wf_write (m : List Host.Cell) (a : Nat) (v : Byte) (hm : Memory.wf m = true) :
    Memory.wf (Memory.write m a v) = true := by
  cases m with
  | nil => rfl
  | cons c m =>
    obtain ⟨k, u⟩ := c
    unfold Memory.write
    split
    · simp_all [Memory.wf, Memory.risingFrom]
    · split
      · rename_i hk
        simp_all [Memory.wf]
      · exact Memory.risingFrom_write m k a v hm (by omega)

/-- A list rising from `lo` lists no address up to `lo`. -/
theorem Memory.find_none_of_risingFrom (m : List Host.Cell) (lo a : Nat) (hm : Memory.risingFrom lo m = true)
    (ha : a ≤ lo) : Memory.find m a = none := by
  induction m generalizing lo with
  | nil => rfl
  | cons c m ih =>
    obtain ⟨k, u⟩ := c
    simp only [Memory.risingFrom, Bool.and_eq_true, decide_eq_true_eq] at hm
    have hne : a ≠ k := by omega
    simp only [Memory.find, hne, if_false]
    exact ih k hm.2 (by omega)

theorem Memory.rising_tail (k : Nat) (v : Byte) (m : List Host.Cell) (hm : Memory.wf ((k, v) :: m) = true) :
    Memory.wf m = true ∧ ∀ a, a ≤ k → Memory.find m a = none := by
  refine ⟨?_, fun a ha => Memory.find_none_of_risingFrom m k a hm ha⟩
  cases m with
  | nil => rfl
  | cons c m =>
    simp only [Memory.wf, Memory.risingFrom, Bool.and_eq_true] at hm
    exact hm.2

/-- The canonical form makes equal memories equal data: two canonical lists that hold the same bytes are one list. -/
theorem Memory.eq_of_find_eq (m m' : List Host.Cell) (hm : Memory.wf m = true) (hm' : Memory.wf m' = true)
    (h : ∀ a, Memory.find m a = Memory.find m' a) : m = m' := by
  induction m generalizing m' with
  | nil =>
    cases m' with
    | nil => rfl
    | cons c m' =>
      have := h c.1
      simp [Memory.find] at this
  | cons c m ih =>
    obtain ⟨k, v⟩ := c
    cases m' with
    | nil =>
      have := h k
      simp [Memory.find] at this
    | cons c' m' =>
      obtain ⟨k', v'⟩ := c'
      obtain ⟨hw, hn⟩ := Memory.rising_tail k v m hm
      obtain ⟨hw', hn'⟩ := Memory.rising_tail k' v' m' hm'
      have hk : k = k' := by
        rcases Nat.lt_trichotomy k k' with hlt | heq | hgt
        · have := h k
          simp [Memory.find, Nat.ne_of_lt hlt, hn' k (by omega)] at this
        · exact heq
        · have := h k'
          simp [Memory.find, Nat.ne_of_lt hgt, hn k' (by omega)] at this
      subst hk
      have hv : v = v' := by
        have := h k
        simpa [Memory.find] using this
      subst hv
      have hm_eq : m = m' := by
        refine ih m' hw hw' fun a => ?_
        rcases Nat.lt_or_ge k a with hlt | hge
        · have := h a
          simpa [Memory.find, Nat.ne_of_gt hlt] using this
        · rw [hn a hge, hn' a hge]
      rw [hm_eq]

/-- The reset state's memory has the canonical form. -/
theorem reset_memory_wf : Memory.wf State.reset.rx.buf = true := rfl

/-! ## The bytes of a packet in `RXBUF` -/

theorem xorBytes_append (xs ys : List Byte) : xorBytes (xs ++ ys) = xorBytes xs ^^^ xorBytes ys := by
  induction xs with
  | nil => simp [xorBytes]
  | cons x xs ih => simp [xorBytes, ih, BitVec.xor_assoc]

theorem rxbufBytes_length (s : State) (n : Nat) : (rxbufBytes s n).length = n := by simp [rxbufBytes]

theorem rxbufBytes_succ (s : State) (n : Nat) :
    rxbufBytes s (n + 1) = rxbufBytes s n ++ [Memory.read s.rx.buf n] := by
  simp [rxbufBytes, List.range_succ]

theorem rxbufBytes_congr (s t : State) (n : Nat)
    (h : ∀ a, a < n → Memory.read t.rx.buf a = Memory.read s.rx.buf a) : rxbufBytes t n = rxbufBytes s n := by
  unfold rxbufBytes
  exact List.map_congr_left fun a ha => h a (List.mem_range.mp ha)

end Sys2Proof.Machine
end

