-- ==== Sys2Proof/Laws/Ops.lean ====
section
/-! SUPPORT. One lemma per shared operation of Machine/Ops.lean, saying everything it does, in terms of the named updates
of `State`; the mapper's rows are brought to the one function `mapBeatOf` of Machine/Lockstep.lean. -/

namespace Sys2Proof.Machine

/-! ## EVENT -/

theorem mergeEvent_clear_none (e b : BitVec 5) : mergeEvent e 0 b = e ||| b := by
  have h : ∀ e b : BitVec 5, mergeEvent e 0 b = e ||| b := by decide
  exact h e b

theorem mergeEvent_none (e : BitVec 5) : mergeEvent e 0 0 = e := by
  rw [mergeEvent_clear_none]
  exact BitVec.or_zero

theorem mergeEvent_or (e clr a b : BitVec 5) : mergeEvent e clr a ||| b = mergeEvent e clr (a ||| b) := by
  simp [mergeEvent, BitVec.or_assoc]

theorem raiseEvent_eq (bits : BitVec 5) (s : State) : raiseEvent bits s = s.setEvent (s.event ||| bits) := by
  rw [raiseEvent, mergeEvent_clear_none]

/-- A drop writes `rx_state`, `LAST_DROP` and its `EVENT` bit, and nothing else. -/
theorem raiseDrop_eq (code : Byte) (s : State) :
    raiseDrop code s =
      (s.setRx { s.rx with state := .waitStart, lastDrop := code }).setEvent (s.event ||| dropBit code) := by
  rw [raiseDrop, raiseEvent_eq, State.setRx_event]

theorem raiseTxErr_eq (s : State) : raiseTxErr s = s.setEvent (s.event ||| eventTxErr) := raiseEvent_eq _ _

theorem raiseMapErr_eq (s : State) : raiseMapErr s = s.setEvent (s.event ||| eventMapErr) := raiseEvent_eq _ _

@[simp] theorem dropBit_checksum : dropBit Config.errChecksum = eventChk := rfl
@[simp] theorem dropBit_overflow : dropBit Config.errBufferOverflow = eventOvs := rfl
@[simp] theorem dropBit_timeout : dropBit Config.errTimeout = eventTmo := rfl

/-! ## The receive framer -/

/-- The framer after a stored payload byte. -/
def RxUnit.stored (r : RxUnit) (b : Byte) (next : RxState) : RxUnit :=
  { r with
    idle := 0
    buf := Memory.write r.buf r.idx.toNat b
    acc := r.acc ^^^ b
    idx := r.idx + 1
    state := next }

theorem storePayload_inRange (b : Byte) (next : RxState) (s : State) (h : s.rx.idx.toNat < s.cfg.rxbufCap) :
    storePayload b next s = .next (s.setRx (s.rx.stored b next)) := by
  simp [storePayload, h, RxUnit.stored]

theorem storePayload_outOfRange (b : Byte) (next : RxState) (s : State) (h : ¬ s.rx.idx.toNat < s.cfg.rxbufCap) :
    storePayload b next s = .fault .rxbufOutOfRange := by
  simp [storePayload, h]

theorem storePayload_next {b : Byte} {next : RxState} {s t : State} (h : storePayload b next s = .next t) :
    s.rx.idx.toNat < s.cfg.rxbufCap ∧ t = s.setRx (s.rx.stored b next) := by
  unfold storePayload at h
  split at h
  · rename_i hlt
    exact ⟨hlt, (Host.Outcome.next.inj h).symm⟩
  · cases h

theorem waitByte_start (s : State) : waitByte Config.startByte s = startPacket s := by simp [waitByte]

theorem waitByte_other {b : Byte} (s : State) (h : b ≠ Config.startByte) : waitByte b s = acceptByte s := by
  simp [waitByte, h]

theorem carryCommand_empty (code : Byte) (s : State) (h : s.rx.len = 0) :
    carryCommand code s = commandNoPayload code s := by simp [carryCommand, h]

theorem carryCommand_payload (code : Byte) (s : State) (h : s.rx.len ≠ 0) :
    carryCommand code s = commandWithPayload code s := by rw [carryCommand, if_neg h]

/-! ## The transmit encoder -/

theorem sendByte_eq (b : Byte) (s : State) :
    sendByte b s = s.setOut { s.out with txValid := true, txData := b } := rfl

theorem sendHeader_eq (b : Byte) (next : TxState) (s : State) :
    sendHeader b next s =
      (s.setOut { s.out with txValid := true, txData := b }).setTx
        { s.tx with acc := s.tx.acc ^^^ b, state := next } := rfl

/-! ## The mapper -/

theorem loadBeat_eq (strip pos addr : Nat) (last : Bool) (err : Byte) (s : State) :
    loadBeat strip pos addr last err s =
      s.setMap (s.map.load { strip := strip, pos := pos, addr := addr, last := last, err := err }) := rfl

/-- The state with a beat loaded and, for an error beat, `EVENT.MAPERR` raised. -/
def State.withBeat (s : State) (b : Beat) : State :=
  (s.setMap (s.map.load b)).setEvent (s.event ||| bitIf (decide (b.err ≠ Config.errOk)) eventMapErr)

theorem withBeat_ok (s : State) (b : Beat) (h : b.err = Config.errOk) : s.withBeat b = s.setMap (s.map.load b) := by
  simp [State.withBeat, h, bitIf, State.setEvent, State.setMap]

theorem errorBeat_eq (code : Byte) (s : State) (h : code ≠ Config.errOk) :
    errorBeat code s = s.withBeat (Beat.error code) := by
  simp [errorBeat, raiseMapErr_eq, loadBeat_eq, State.withBeat, Beat.error, h, bitIf]

theorem nextBroadcastBeat_eq (s : State) : nextBroadcastBeat s = s.setMap (s.map.load (continuationBeat s.map)) := rfl

/-- The fold of a valid geometry: twice the half width times the number of strips is every pixel. -/
theorem fold_pixels {w n : Nat} (h : w % 2 = 0) : w / 2 * (2 * n) = w * n := by
  obtain ⟨k, rfl⟩ : ∃ k, w = 2 * k := ⟨w / 2, by omega⟩
  rw [Nat.mul_div_cancel_left k (by omega), Nat.mul_left_comm, Nat.mul_assoc]

/-- The rows of R102 are the one function `mapBeatOf` of the geometry. -/
theorem applyMapRow_eq (strip : Byte) (l : Half) (s : State) :
    applyMapRow strip l s = s.withBeat (mapBeatOf s.csr.mode (widthOf s) (stripsOf s) strip l.toNat) := by
  have hp : Config.errInvalidParam ≠ Config.errOk := by decide
  have hc : Config.errConfig ≠ Config.errOk := by decide
  unfold applyMapRow mapBeatOf
  change (if geometryValid s.csr.mode (widthOf s) (stripsOf s) = true then _ else _) = _
  split
  · rename_i hv
    cases hm : s.csr.mode with
    | strip =>
      simp only
      split
      · unfold mapBroadcastBeat
        split
        · rename_i hle
          rw [if_neg (by omega), errorBeat_eq _ _ hp]
        · rename_i hle
          rw [if_pos (by omega), withBeat_ok _ _ rfl, loadBeat_eq]
          simp [Beat.pixel]
      · unfold mapStripBeat
        split
        · rename_i hle
          rw [if_neg (by omega), errorBeat_eq _ _ hp]
        · rename_i hle
          rw [if_pos (by omega), withBeat_ok _ _ rfl, loadBeat_eq]
          simp [Beat.pixel]
    | flat =>
      simp only [mapFlatBeat]
      split
      · rename_i hle
        rw [if_neg (by omega), errorBeat_eq _ _ hp]
      · rename_i hle
        rw [if_pos (by omega), withBeat_ok _ _ rfl, loadBeat_eq]
        simp [Beat.pixel]
    | folded =>
      have hw : widthOf s % 2 = 0 := by
        rw [hm] at hv
        simp only [geometryValid, Bool.and_eq_true, decide_eq_true_eq] at hv
        exact hv.2
      simp only [mapFoldBeat, Config.foldSerpentine, fold_pixels hw]
      split
      · rename_i hle
        rw [if_neg (by omega), errorBeat_eq _ _ hp]
      · rename_i hle
        rw [if_pos (by omega), withBeat_ok _ _ rfl, loadBeat_eq]
        simp [Beat.pixel, foldPixel]
    | reserved => exact errorBeat_eq _ _ hc
  · exact errorBeat_eq _ _ hc

/-! ## Registers and reset -/

theorem driveReadData_eq (v : Half) (s : State) : driveReadData v s = s.setOut { s.out with csrRdata := v } := rfl

theorem writeConfig_eq (c : CsrUnit) (s : State) :
    writeConfig c s = (s.setCsr c).setOut { s.out with csrRdata := 0 } := rfl

theorem ignoreWrite_eq (s : State) : ignoreWrite s = s.setOut { s.out with csrRdata := 0 } := rfl

@[simp] theorem resetBlock_cfg (s : State) : (resetBlock s).cfg = s.cfg := rfl
@[simp] theorem resetBlock_rx (s : State) : (resetBlock s).rx = { RxUnit.reset with buf := s.rx.buf } := rfl
@[simp] theorem resetBlock_tx (s : State) : (resetBlock s).tx = TxUnit.reset := rfl
@[simp] theorem resetBlock_map (s : State) : (resetBlock s).map = MapUnit.reset := rfl
@[simp] theorem resetBlock_csr (s : State) : (resetBlock s).csr = CsrUnit.reset s.cfg := rfl
@[simp] theorem resetBlock_event (s : State) : (resetBlock s).event = 0 := rfl
@[simp] theorem resetBlock_env (s : State) : (resetBlock s).env = s.env := rfl
@[simp] theorem resetBlock_held (s : State) : (resetBlock s).held = s.held := rfl

end Sys2Proof.Machine
end

