-- ==== Sys2Proof/Laws/PerInstr.lean ====
section
/-! SUPPORT. What holds of every operation as syntax, one lemma per constructor: the selector word its encoder writes fits
in the width of its port (R99 to R105). -/

namespace Sys2Proof.Laws.EncodeFits

open Sys2Proof

/-- The word the encoder writes has no bit above its selector's width. -/
def Statement (i : Instr) : Prop := (encode i).word.toNat < 2 ^ (encode i).port.width

theorem rxWord_fits (st : BitVec 3) (b : Byte) (c : Bool) :
    (rxWord st b c).word.toNat < 2 ^ (rxWord st b c).port.width := by
  simp only [rxWord, Port.width, toNat_rxSelector]
  omega

theorem mapWord_fits {p : Port} (hp : p.width = 10) (mode : BitVec 2) (strip : Byte) (l : Half) (c : Bool) :
    (mapWord p mode strip l c).word.toNat < 2 ^ (mapWord p mode strip l c).port.width := by
  simp only [mapWord, hp, toNat_mapSelector]
  omega

theorem csrWord_fits (we : Bool) (addr : BitVec 4) (d : Half) :
    (csrWord we addr d).word.toNat < 2 ^ (csrWord we addr d).port.width := by
  simp only [csrWord, Port.width, toNat_csrSelector]
  cases we <;> simp <;> omega

theorem txWord_fits (st : BitVec 3) (p : Byte) : (txWord st p).word.toNat < 2 ^ (txWord st p).port.width := by
  simp only [txWord, Port.width, BitVec.toNat_setWidth]
  omega

theorem rxWsStart : Statement .rxWsStart := rxWord_fits _ _ _
theorem rxWsSkip (b : Byte) : Statement (.rxWsSkip b) := rxWord_fits _ _ _
theorem rxFlags (b : Byte) : Statement (.rxFlags b) := rxWord_fits _ _ _
theorem rxLenLo (b : Byte) : Statement (.rxLenLo b) := rxWord_fits _ _ _
theorem rxLenHiOversize (b : Byte) : Statement (.rxLenHiOversize b) := rxWord_fits _ _ _
theorem rxLenHi (b : Byte) : Statement (.rxLenHi b) := rxWord_fits _ _ _
theorem rxCmdEmpty (b : Byte) : Statement (.rxCmdEmpty b) := rxWord_fits _ _ _
theorem rxCmd (b : Byte) : Statement (.rxCmd b) := rxWord_fits _ _ _
theorem rxPayloadLast (b : Byte) : Statement (.rxPayloadLast b) := rxWord_fits _ _ _
theorem rxPayload (b : Byte) : Statement (.rxPayload b) := rxWord_fits _ _ _
theorem rxChkOk (b : Byte) : Statement (.rxChkOk b) := rxWord_fits _ _ _
theorem rxChkBad (b : Byte) : Statement (.rxChkBad b) := rxWord_fits _ _ _
theorem rxState7 (b : Byte) : Statement (.rxState7 b) := rxWord_fits _ _ _
theorem rxTick : Statement .rxTick := by unfold Statement; decide
theorem rxTimeout : Statement .rxTimeout := by unfold Statement; decide
theorem pktAck : Statement .pktAck := by unfold Statement; decide
theorem plRd (a : BitVec 10) : Statement (.plRd a) := show 1 < 2 ^ 1 by decide
theorem txReq (f c : Byte) (n : Half) : Statement (.txReq f c n) := show 1 < 2 ^ 1 by decide
theorem txReqRefuse (n : Half) : Statement (.txReqRefuse n) := show 1 < 2 ^ 1 by decide
theorem txEmitStart : Statement .txEmitStart := txWord_fits _ _
theorem txEmitFlags : Statement .txEmitFlags := txWord_fits _ _
theorem txEmitLenLo : Statement .txEmitLenLo := txWord_fits _ _
theorem txEmitLenHi : Statement .txEmitLenHi := txWord_fits _ _
theorem txEmitCmd : Statement .txEmitCmd := txWord_fits _ _
theorem txEmitPayload (p : Byte) : Statement (.txEmitPayload p) := txWord_fits _ _
theorem txEmitChk : Statement .txEmitChk := txWord_fits _ _
theorem mapAccept (strip : Byte) (l : Half) : Statement (.mapAccept strip l) := mapWord_fits rfl _ _ _ _
theorem mapCfgErr (strip : Byte) (l : Half) : Statement (.mapCfgErr strip l) := mapWord_fits rfl _ _ _ _
theorem mapStripBcast (l : Half) : Statement (.mapStripBcast l) := mapWord_fits rfl _ _ _ _
theorem mapStrip (strip : Byte) (l : Half) : Statement (.mapStrip strip l) := mapWord_fits rfl _ _ _ _
theorem mapFlat (strip : Byte) (l : Half) : Statement (.mapFlat strip l) := mapWord_fits rfl _ _ _ _
theorem mapFold (strip : Byte) (l : Half) : Statement (.mapFold strip l) := mapWord_fits rfl _ _ _ _
theorem mapRsvd (strip : Byte) (l : Half) : Statement (.mapRsvd strip l) := mapWord_fits rfl _ _ _ _
theorem mapBeat : Statement .mapBeat := by unfold Statement; decide
theorem mapBcastNext : Statement .mapBcastNext := by unfold Statement; decide
theorem csrRdCtrl : Statement .csrRdCtrl := csrWord_fits _ _ _
theorem csrWrCtrl (d : Half) : Statement (.csrWrCtrl d) := csrWord_fits _ _ _
theorem csrRdMaxPayload : Statement .csrRdMaxPayload := csrWord_fits _ _ _
theorem csrWrMaxPayload (d : Half) : Statement (.csrWrMaxPayload d) := csrWord_fits _ _ _
theorem csrRdChkerrCnt : Statement .csrRdChkerrCnt := csrWord_fits _ _ _
theorem csrWrChkerrCnt (d : Half) : Statement (.csrWrChkerrCnt d) := csrWord_fits _ _ _
theorem csrRdEvent : Statement .csrRdEvent := csrWord_fits _ _ _
theorem csrWrEvent (d : Half) : Statement (.csrWrEvent d) := csrWord_fits _ _ _
theorem csrRdIrqEn : Statement .csrRdIrqEn := csrWord_fits _ _ _
theorem csrWrIrqEn (d : Half) : Statement (.csrWrIrqEn d) := csrWord_fits _ _ _
theorem csrRdStatus : Statement .csrRdStatus := csrWord_fits _ _ _
theorem csrWrStatus (d : Half) : Statement (.csrWrStatus d) := csrWord_fits _ _ _
theorem csrRdMapMode : Statement .csrRdMapMode := csrWord_fits _ _ _
theorem csrWrMapMode (d : Half) : Statement (.csrWrMapMode d) := csrWord_fits _ _ _
theorem csrRdPhysWidth : Statement .csrRdPhysWidth := csrWord_fits _ _ _
theorem csrWrPhysWidth (d : Half) : Statement (.csrWrPhysWidth d) := csrWord_fits _ _ _
theorem csrRdStripCount : Statement .csrRdStripCount := csrWord_fits _ _ _
theorem csrWrStripCount (d : Half) : Statement (.csrWrStripCount d) := csrWord_fits _ _ _
theorem csrRdBrightness : Statement .csrRdBrightness := csrWord_fits _ _ _
theorem csrWrBrightness (d : Half) : Statement (.csrWrBrightness d) := csrWord_fits _ _ _
theorem csrRdMatrixWidth : Statement .csrRdMatrixWidth := csrWord_fits _ _ _
theorem csrWrMatrixWidth (d : Half) : Statement (.csrWrMatrixWidth d) := csrWord_fits _ _ _
theorem csrRdMatrixHeight : Statement .csrRdMatrixHeight := csrWord_fits _ _ _
theorem csrWrMatrixHeight (d : Half) : Statement (.csrWrMatrixHeight d) := csrWord_fits _ _ _
theorem csrRdLastDrop : Statement .csrRdLastDrop := csrWord_fits _ _ _
theorem csrWrLastDrop (d : Half) : Statement (.csrWrLastDrop d) := csrWord_fits _ _ _
theorem csrRdRsvdD : Statement .csrRdRsvdD := csrWord_fits _ _ _
theorem csrWrRsvdD (d : Half) : Statement (.csrWrRsvdD d) := csrWord_fits _ _ _
theorem csrRdRsvdE : Statement .csrRdRsvdE := csrWord_fits _ _ _
theorem csrWrRsvdE (d : Half) : Statement (.csrWrRsvdE d) := csrWord_fits _ _ _
theorem csrRdRsvdF : Statement .csrRdRsvdF := csrWord_fits _ _ _
theorem csrWrRsvdF (d : Half) : Statement (.csrWrRsvdF d) := csrWord_fits _ _ _
theorem csrIdle : Statement .csrIdle := by unfold Statement; decide
theorem scale (v : Byte) : Statement (.scale v) := show 0 < 2 ^ 0 by decide
theorem reset : Statement .reset := by unfold Statement; decide
theorem cmdNop : Statement .cmdNop := by unfold Statement; decide
theorem cmdReset : Statement .cmdReset := by unfold Statement; decide
theorem cmdAck : Statement .cmdAck := by unfold Statement; decide
theorem cmdNak : Statement .cmdNak := by unfold Statement; decide
theorem cmdHello : Statement .cmdHello := by unfold Statement; decide
theorem cmdShow : Statement .cmdShow := by unfold Statement; decide
theorem cmdGetInfo : Statement .cmdGetInfo := by unfold Statement; decide
theorem cmdGetPixels : Statement .cmdGetPixels := by unfold Statement; decide
theorem cmdGetControl : Statement .cmdGetControl := by unfold Statement; decide
theorem cmdInfoResponse : Statement .cmdInfoResponse := by unfold Statement; decide
theorem cmdPixelResponse : Statement .cmdPixelResponse := by unfold Statement; decide
theorem cmdControlResponse : Statement .cmdControlResponse := by unfold Statement; decide
theorem cmdPixelSetAll : Statement .cmdPixelSetAll := by unfold Statement; decide
theorem cmdPixelSetRange : Statement .cmdPixelSetRange := by unfold Statement; decide
theorem cmdPixelFrame : Statement .cmdPixelFrame := by unfold Statement; decide
theorem cmdSetControl : Statement .cmdSetControl := by unfold Statement; decide
theorem cmdStatusUpdate : Statement .cmdStatusUpdate := by unfold Statement; decide
theorem cmdFrameAck : Statement .cmdFrameAck := by unfold Statement; decide
theorem cmdInputEvent : Statement .cmdInputEvent := by unfold Statement; decide

end Sys2Proof.Laws.EncodeFits
end

