-- ==== Sys2Proof/Laws/Run.lean ====
section
/-! SUPPORT. Runs of cycles and streams of bytes: a run of `a + b` cycles is a run of `a` and then one of `b`, and what the
XOR of R93 does to bytes changed by errors. -/

namespace Sys2Proof.Machine

theorem runFor_one {s t : State} (h : step s = .next t) : runFor 1 s = .next t := by simp only [runFor, h]

theorem runFor_add (a b : Nat) {s t : State} (h : runFor a s = .next t) : runFor (a + b) s = runFor b t := by
  induction a generalizing s with
  | zero =>
    simp only [runFor] at h
    rw [Host.Outcome.next.inj h, Nat.zero_add]
  | succ a ih =>
    rw [Nat.succ_add]
    simp only [runFor] at h ⊢
    cases hs : step s with
    | next u => rw [hs] at h; exact ih h
    | fault f => rw [hs] at h; cases h
    | refused r => rw [hs] at h; cases h

theorem sentBytes_add (a b : Nat) {s t : State} (h : runFor a s = .next t) :
    sentBytes (a + b) s = sentBytes a s ++ sentBytes b t := by
  induction a generalizing s with
  | zero =>
    simp only [runFor] at h
    rw [Host.Outcome.next.inj h, Nat.zero_add]
    rfl
  | succ a ih =>
    rw [Nat.succ_add]
    simp only [runFor] at h
    simp only [sentBytes]
    cases hs : step s with
    | next u => rw [hs] at h; simp only []; rw [ih h, List.append_assoc]
    | fault f => rw [hs] at h; cases h
    | refused r => rw [hs] at h; cases h

@[simp] theorem fed_env (s : State) (is : List Inputs) : (s.fed is).env = is := rfl
@[simp] theorem fed_held (s : State) (is : List Inputs) : (s.fed is).held = Held.none := rfl
@[simp] theorem fed_rx (s : State) (is : List Inputs) : (s.fed is).rx = s.rx := rfl
@[simp] theorem fed_tx (s : State) (is : List Inputs) : (s.fed is).tx = s.tx := rfl
@[simp] theorem fed_map (s : State) (is : List Inputs) : (s.fed is).map = s.map := rfl
@[simp] theorem fed_csr (s : State) (is : List Inputs) : (s.fed is).csr = s.csr := rfl
@[simp] theorem fed_cfg (s : State) (is : List Inputs) : (s.fed is).cfg = s.cfg := rfl
@[simp] theorem fed_event (s : State) (is : List Inputs) : (s.fed is).event = s.event := rfl

theorem xorBytes_zipWith (a e : List Byte) (h : e.length = a.length) :
    xorBytes (List.zipWith (· ^^^ ·) a e) = xorBytes a ^^^ xorBytes e := by
  induction a generalizing e with
  | nil => cases e with
    | nil => rfl
    | cons y e => simp at h
  | cons x a ih => cases e with
    | nil => simp at h
    | cons y e =>
      simp only [List.zipWith_cons_cons, xorBytes, ih e (by simpa using h)]
      ac_rfl

/-- A byte written right after the first `n` bytes extends them. -/
theorem rxbufBytes_write {s t : State} {n : Nat} {b : Byte} (h : t.rx.buf = Memory.write s.rx.buf n b) :
    rxbufBytes t (n + 1) = rxbufBytes s n ++ [b] := by
  rw [rxbufBytes_succ, h, Memory.read_write_same]
  congr 1
  apply rxbufBytes_congr
  intro a ha
  rw [h, Memory.read_write_other _ _ (by omega)]

end Sys2Proof.Machine
end

