-- ==== Sys2Proof/Tests/Slice0.lean ====
section
/-! SUPPORT. Tests: which terms `WellFormed` refuses, the words of every operation written out from spec/30_encoding.md, single
steps from the vectors of spec/95_test_vectors.md, and for every statement with hypotheses a concrete case that meets them. -/

namespace Sys2Proof.Tests
open Sys2Proof Sys2Proof.Machine

/-! ## Well-formedness: each check has a term it refuses -/

theorem test_wellFormed_refuses_skip_of_start_byte : ¬ WellFormed (.rxWsSkip 0xAA) := by simp [WellFormed, Config.startByte]
theorem test_wellFormed_refuses_strip_of_broadcast_id : ¬ WellFormed (.mapStrip 0xFF 7) := by
  simp [WellFormed, Config.broadcastStrip]
theorem test_wellFormed_refuses_refusal_of_length_zero : ¬ WellFormed (.txReqRefuse 0) := by simp [WellFormed]

/-! ## Decoding: words written out bit by bit -/

/-- What the decoder reads from a word of a port, if anything. -/
def reads (p : Port) (w : BitVec 16) (c : Bool) (o : BitVec 32) : Option Instr :=
  match decode { port := p, word := w, cond := c, operand := o } with
  | .ok i => some i
  | .error _ => none

/-- Whether every word of a list is read as the operation beside it. -/
def allRead (p : Port) (ws : List (BitVec 16 × Bool × BitVec 32 × Instr)) : Bool :=
  ws.all fun w => decide (reads p w.1 w.2.1 w.2.2.1 = some w.2.2.2)

/-- R99: state in bits 10:8, byte in bits 7:0. -/
theorem test_decode_receive_bytes : allRead .rxByte
    [(0b000_10101010, false, 0, .rxWsStart), (0b000_01010101, false, 0, .rxWsSkip 0x55),
     (0b001_00000010, false, 0, .rxFlags 0x02), (0b010_00000011, false, 0, .rxLenLo 0x03),
     (0b011_00000100, true, 0, .rxLenHiOversize 0x04), (0b011_00000000, false, 0, .rxLenHi 0x00),
     (0b100_00000101, true, 0, .rxCmdEmpty 0x05), (0b100_00110000, false, 0, .rxCmd 0x30),
     (0b101_00010010, true, 0, .rxPayloadLast 0x12), (0b101_00110100, false, 0, .rxPayload 0x34),
     (0b110_00100001, true, 0, .rxChkOk 0x21), (0b110_00000011, false, 0, .rxChkBad 0x03),
     (0b111_10101010, false, 0, .rxState7 0xAA)] = true := by decide

/-- R100: a one-bit selector that is 1; the payload address is an operand of 10 bits. -/
theorem test_decode_receive_signals :
    reads .tick 1 false 0 = some .rxTick ∧ reads .timeout 1 false 0 = some .rxTimeout ∧
    reads .pktAck 1 false 0 = some .pktAck ∧ reads .plRd 1 false 0x3FF = some (.plRd 0x3FF) := by decide

/-- A signal that is low selects nothing, and a word with a bit above its selector is rejected by name. -/
theorem test_decode_rejects_by_name :
    reads .tick 0 false 0 = none ∧ reads .rst 0 false 0 = none ∧ reads .csrIdle 1 false 0 = none ∧
    reads .txByte 0 false 0 = none ∧ reads .rxByte 0x800 false 0 = none ∧ reads .csr 0x20 false 0 = none ∧
    reads .command 0x06 false 0 = none ∧ reads .command 0x60 false 0 = none := by decide

/-- R101: `tx_state` in three bits; a request's operands are flags, command and length. -/
theorem test_decode_transmit : allRead .txByte
    [(0b001, false, 0, .txEmitStart), (0b010, false, 0, .txEmitFlags), (0b011, false, 0, .txEmitLenLo),
     (0b100, false, 0, .txEmitLenHi), (0b101, false, 0, .txEmitCmd), (0b110, false, 0x7F, .txEmitPayload 0x7F),
     (0b111, false, 0, .txEmitChk)] = true ∧
    reads .txReq 1 true 0x00010302 = some (.txReq 0x02 0x03 0x0001) ∧
    reads .txReq 1 false 0x07D02100 = some (.txReqRefuse 0x07D0) := by decide

/-- R102: mode in bits 9:8, strip id in bits 7:0; `CFG_VALID = 0` before every row. -/
theorem test_decode_map_rows : allRead .mapRow
    [(0b10_00000101, false, 60, .mapCfgErr 5 60), (0b00_11111111, true, 7, .mapStripBcast 7),
     (0b00_00000010, true, 10, .mapStrip 2 10), (0b01_00000000, true, 125, .mapFlat 0 125),
     (0b10_11111111, true, 60, .mapFold 0xFF 60), (0b11_00000000, true, 0, .mapRsvd 0 0)] = true ∧
    reads .mapReq 0b10_00000101 true 60 = some (.mapAccept 5 60) ∧ reads .mapRsp 1 false 0 = some .mapBeat ∧
    reads .mapNext 1 false 0 = some .mapBcastNext := by decide

/-- R103: `csr_we` in bit 4, the address in bits 3:0: the reads. -/
theorem test_decode_register_reads : allRead .csr
    [(0b0_0000, false, 0, .csrRdCtrl), (0b0_0001, false, 0, .csrRdMaxPayload), (0b0_0010, false, 0, .csrRdChkerrCnt),
     (0b0_0011, false, 0, .csrRdEvent), (0b0_0100, false, 0, .csrRdIrqEn), (0b0_0101, false, 0, .csrRdStatus),
     (0b0_0110, false, 0, .csrRdMapMode), (0b0_0111, false, 0, .csrRdPhysWidth), (0b0_1000, false, 0, .csrRdStripCount),
     (0b0_1001, false, 0, .csrRdBrightness), (0b0_1010, false, 0, .csrRdMatrixWidth),
     (0b0_1011, false, 0, .csrRdMatrixHeight), (0b0_1100, false, 0, .csrRdLastDrop), (0b0_1101, false, 0, .csrRdRsvdD),
     (0b0_1110, false, 0, .csrRdRsvdE), (0b0_1111, false, 0, .csrRdRsvdF)] = true := by decide

/-- R103: the writes, with their data. -/
theorem test_decode_register_writes : allRead .csr
    [(0b1_0000, false, 0xFFFE, .csrWrCtrl 0xFFFE), (0b1_0001, false, 0x0800, .csrWrMaxPayload 0x0800),
     (0b1_0010, false, 1, .csrWrChkerrCnt 1), (0b1_0011, false, 0x1F, .csrWrEvent 0x1F),
     (0b1_0100, false, 0x20, .csrWrIrqEn 0x20), (0b1_0101, false, 5, .csrWrStatus 5), (0b1_0110, false, 2, .csrWrMapMode 2),
     (0b1_0111, false, 0x78, .csrWrPhysWidth 0x78), (0b1_1000, false, 8, .csrWrStripCount 8),
     (0b1_1001, false, 0x7F, .csrWrBrightness 0x7F), (0b1_1010, false, 6, .csrWrMatrixWidth 6),
     (0b1_1011, false, 7, .csrWrMatrixHeight 7), (0b1_1100, false, 9, .csrWrLastDrop 9),
     (0b1_1101, false, 0x1234, .csrWrRsvdD 0x1234), (0b1_1110, false, 2, .csrWrRsvdE 2),
     (0b1_1111, false, 3, .csrWrRsvdF 3)] = true := by decide

/-- R104: no access, the scaler, the reset. -/
theorem test_decode_idle_scale_reset :
    reads .csrIdle 0 false 0 = some .csrIdle ∧ reads .scale 0 false 0x80 = some (.scale 0x80) ∧
    reads .rst 1 false 0 = some .reset := by decide

/-- R105, R163 to R181: the command codes. -/
theorem test_decode_commands : allRead .command
    [(0x00, false, 0, .cmdNop), (0x01, false, 0, .cmdReset), (0x02, false, 0, .cmdAck), (0x03, false, 0, .cmdNak),
     (0x04, false, 0, .cmdHello), (0x05, false, 0, .cmdShow), (0x10, false, 0, .cmdGetInfo), (0x11, false, 0, .cmdGetPixels),
     (0x12, false, 0, .cmdGetControl), (0x20, false, 0, .cmdInfoResponse), (0x21, false, 0, .cmdPixelResponse),
     (0x22, false, 0, .cmdControlResponse), (0x30, false, 0, .cmdPixelSetAll), (0x31, false, 0, .cmdPixelSetRange),
     (0x33, false, 0, .cmdPixelFrame), (0x40, false, 0, .cmdSetControl), (0x50, false, 0, .cmdStatusUpdate),
     (0x51, false, 0, .cmdFrameAck), (0x53, false, 0, .cmdInputEvent)] = true := by decide

/-- A bare word of the table, laid out least significant byte first (log 13). -/
theorem test_decode_bare_words :
    decodeTableWord 16 0x0AA = some .rxWsStart ∧ decodeTableWord 16 0x0FF = some (.mapStripBcast 0) ∧
    decodeTableWord 8 0x05 = some .csrRdStatus ∧ decodeTableWord 8 0x33 = some .cmdPixelFrame ∧
    decodeTableWord 8 0x60 = none ∧ decodeTableWord 16 0x800 = none := by decide

/-! ## Single cycles -/

/-- The state after one cycle with these inputs. -/
def after (s : State) (i : Inputs) : Option State := nextState? (step (s.fed [i]))

/-- The state after one operation. -/
def does (i : Instr) (s : State) : Option State := nextState? (exec i s)

/-- The state after reset with another framer. -/
def rxState (f : RxUnit → RxUnit) : State := { State.reset with rx := f State.reset.rx }

/-- The state after reset with another encoder. -/
def txState (f : TxUnit → TxUnit) : State := { State.reset with tx := f State.reset.tx }

/-- The state after reset with a geometry. -/
def geometry (m : MapMode) (w n : Nat) : State :=
  { State.reset with csr := { State.reset.csr with
      mode := m, physWidth := BitVec.ofNat 16 w, stripCount := BitVec.ofNat 5 n } }

/-- The beat registers as spec/95 writes a beat: strip, position, address, last, error. -/
def beat (t : State) : Nat × Nat × Nat × Bool × Byte :=
  (t.map.strip.toNat, t.map.pos.toNat, t.map.addr.toNat, t.map.last, t.map.err)

/-! Receive framer (spec/95 sections 1 and 2). -/

/-- V-RX-1, first byte (R115). -/
theorem test_start_byte_opens : (after (rxState fun r => { r with acc := 7 }) (byteIn 0xAA)).map
    (fun t => (t.rx.state, t.rx.acc)) = some (.readFlags, 0) := by decide
/-- V-RX-14 (R116). -/
theorem test_other_byte_is_skipped : (after State.reset (byteIn 0xAB)).map (fun t => (t.rx.state, t.event)) =
    some (.waitStart, 0) := by decide
/-- V-RX-1 (R117). -/
theorem test_flags_byte : (after (rxState fun r => { r with state := .readFlags }) (byteIn 0x02)).map
    (fun t => (t.rx.flags, t.rx.acc, t.rx.state)) = some (0x02, 0x02, .readLengthLow) := by decide
/-- V-RX-2 (R118): the high half becomes 0. -/
theorem test_length_low_byte : (after (rxState fun r => { r with state := .readLengthLow, len := 0x0401 }) (byteIn 2)).map
    (fun t => (t.rx.len, t.rx.acc, t.rx.state)) = some (0x0002, 0x02, .readLengthHigh) := by decide
/-- V-RX-16 (R119): 1024 is not over the maximum. -/
theorem test_length_high_byte : (after (rxState fun r => { r with state := .readLengthHigh }) (byteIn 4)).map
    (fun t => (t.rx.len, t.rx.acc, t.rx.state)) = some (0x0400, 0x04, .readCommand) := by decide
/-- V-RX-5 (R120): 1025 is. -/
theorem test_oversize_drops : (after (rxState fun r => { r with state := .readLengthHigh, len := 1, acc := 1 }) (byteIn 4)).map
    (fun t => (t.rx.len, t.rx.acc, t.rx.state, t.event, t.rx.lastDrop)) =
      some (0x0401, 0x01, .waitStart, 0b00010, 0x05) := by decide
/-- V-RX-1 (R121): an empty packet goes to its checksum; `rx_idx` stays. -/
theorem test_command_of_empty_packet :
    (after (rxState fun r => { r with state := .readCommand, acc := 2, idx := 3 }) (byteIn 5)).map
      (fun t => (t.rx.cmd, t.rx.acc, t.rx.idx, t.rx.state)) = some (0x05, 0x07, 3, .readChecksum) := by decide
/-- V-RX-2 (R122). -/
theorem test_command_of_packet :
    (after (rxState fun r => { r with state := .readCommand, len := 2, acc := 2, idx := 3 }) (byteIn 5)).map
      (fun t => (t.rx.cmd, t.rx.acc, t.rx.idx, t.rx.state)) = some (0x05, 0x07, 0, .readPayload) := by decide
/-- V-RX-22 (R123). -/
theorem test_payload_byte :
    (after (rxState fun r => { r with state := .readPayload, len := 2, acc := 0x33 }) (byteIn 0x10)).map
      (fun t => (t.rx.buf, t.rx.idx, t.rx.acc, t.rx.state)) = some ([(0, 0x10)], 1, 0x23, .readPayload) := by decide
/-- V-RX-2 (R124). -/
theorem test_last_payload_byte :
    (after (rxState fun r => { r with state := .readPayload, len := 2, idx := 1, acc := 0x33, buf := [(0, 0x34)] })
      (byteIn 0x12)).map (fun t => (t.rx.buf, t.rx.idx, t.rx.acc, t.rx.state)) =
        some ([(0, 0x34), (1, 0x12)], 2, 0x21, .readChecksum) := by decide
/-- V-RX-1 (R125). -/
theorem test_checksum_delivers : (after (rxState fun r => { r with state := .readChecksum, acc := 2 }) (byteIn 2)).map
    (fun t => (t.rx.pending, t.rx.chk, t.rx.state, statusWord t)) = some (true, 0x02, .waitStart, 0x0008) := by decide
/-- V-RX-7 (R126): `rx_chk` stays. -/
theorem test_checksum_drops : (after (rxState fun r => { r with state := .readChecksum, acc := 2, chk := 9 }) (byteIn 3)).map
    (fun t => (t.rx.pending, t.rx.chk, t.rx.chkErr, t.event, t.rx.lastDrop)) =
      some (false, 0x09, 1, 0b00001, 0x01) := by decide
/-- V-RX-11 (R126): the counter wraps. -/
theorem test_checksum_counter_wraps :
    (after (rxState fun r => { r with state := .readChecksum, acc := 2, chkErr := 0xFFFF }) (byteIn 3)).map
      (fun t => t.rx.chkErr) = some 0x0000 := by decide
/-- R127: the unused state acts as `WaitStart`; another byte leaves it as it is. -/
theorem test_unused_state : (after (rxState fun r => { r with state := .unused7, acc := 9 }) (byteIn 0xAA)).map
      (fun t => (t.rx.state, t.rx.acc)) = some (.readFlags, 0) ∧
    (after (rxState fun r => { r with state := .unused7 }) (byteIn 0xAB)).map (fun t => t.rx.state) = some .unused7 := by
  decide
/-- V-SRC-7 (R113, R114): the tenth tick keeps the partial packet, the eleventh drops it. -/
theorem test_tick_limit : (after (rxState fun r => { r with state := .readLengthHigh, idle := 9 }) tickIn).map
      (fun t => (t.rx.state, t.rx.idle, t.event)) = some (.readLengthHigh, 10, 0) ∧
    (after (rxState fun r => { r with state := .readLengthHigh, idle := 10 }) tickIn).map
      (fun t => (t.rx.state, t.rx.idle, t.event, t.rx.lastDrop)) = some (.waitStart, 11, 0b00100, 0x09) := by decide
/-- V-RX-9 (R113): the counter saturates in `WaitStart`, without an event. -/
theorem test_tick_saturates : (after (rxState fun r => { r with idle := 11 }) tickIn).map (fun t => (t.rx.idle, t.event)) =
    some (11, 0) := by decide
/-- V-RX-22 (R114): the payload index and the buffer stay. -/
theorem test_timeout_keeps_payload :
    (does .rxTimeout (rxState fun r => { r with state := .readPayload, idx := 1, buf := [(0, 0x10)] })).map
      (fun t => (t.rx.state, t.rx.idx, t.rx.buf, t.rx.lastDrop)) = some (.waitStart, 1, [(0, 0x10)], 0x09) := by decide
/-- V-RX-17 (R112): a byte wins over a tick. -/
theorem test_byte_wins_over_tick :
    (after (rxState fun r => { r with state := .readLengthLow, idle := 10 }) { byteIn 0 with tick := true }).map
      (fun t => (t.rx.state, t.rx.idle, t.event)) = some (.readLengthHigh, 0, 0) := by decide
/-- V-RX-10 (R111, R129). -/
theorem test_acknowledge : (after (rxState fun r => { r with pending := true }) { byteIn 0xAA with pktAck := true }).map
    (fun t => (t.rx.pending, t.rx.state, t.out.rxReady, t.held.rx)) = some (false, .waitStart, false, some 0xAA) := by
  decide
/-- V-RST-1 (R130), and the read of an address outside `RXBUF` (V-CSR-3). -/
theorem test_payload_read : (after (rxState fun r => { r with buf := [(0, 0xFF)] }) { plRdEn := true }).map
      (fun t => t.rx.plRdQ) = some 0xFF ∧
    (after { State.reset with cfg := { State.reset.cfg with rxbufCap := 64 } }
      { plRdEn := true, plRdAddr := 100 }).map (fun t => t.rx.plRdQ) = some 0x00 := by decide

/-! Wire command codes: carried as a packet's command byte (log 14). -/

/-- The codes of a family of commands, each carried by its operation. -/
def carried (cs : List (Instr × Byte)) : Bool :=
  cs.all fun c => decide ((does c.1 (rxState fun r => { r with state := .readCommand, acc := 0xFF })).map
    (fun t => (t.rx.cmd, t.rx.acc)) = some (c.2, 0xFF ^^^ c.2))

/-- R163 to R181. -/
theorem test_commands_carried : carried
    [(.cmdNop, 0x00), (.cmdReset, 0x01), (.cmdAck, 0x02), (.cmdNak, 0x03), (.cmdHello, 0x04), (.cmdShow, 0x05),
     (.cmdGetInfo, 0x10), (.cmdGetPixels, 0x11), (.cmdGetControl, 0x12), (.cmdInfoResponse, 0x20),
     (.cmdPixelResponse, 0x21), (.cmdControlResponse, 0x22), (.cmdPixelSetAll, 0x30), (.cmdPixelSetRange, 0x31),
     (.cmdPixelFrame, 0x33), (.cmdSetControl, 0x40), (.cmdStatusUpdate, 0x50), (.cmdFrameAck, 0x51),
     (.cmdInputEvent, 0x53)] = true := by decide

/-! Transmit encoder (spec/95 section 3). -/

/-- V-TX-1 (R142): the response bit is applied. -/
theorem test_request_accepted : (after State.reset { txReqValid := true, txReqCmd := 2, txReqLen := 1 }).map
    (fun t => (t.tx.state, t.tx.flags, t.tx.cmd, t.tx.len)) = some (.start, 0x04, 0x02, 0x0001) := by decide
/-- V-TX-9 (R285): the request uses the old `TX_RESP`. -/
theorem test_request_uses_old_control :
    (after State.reset { txReqValid := true, csrValid := true, csrWe := true }).map
      (fun t => (t.tx.flags, t.csr.txResp)) = some (0x04, false) := by decide
/-- V-TX-5 (R143). -/
theorem test_request_refused : (after State.reset { txReqValid := true, txReqCmd := 0x21, txReqLen := 0x07D0 }).map
    (fun t => (t.tx.state, t.event, t.rx.lastDrop)) = some (.idle, 0b01000, 0x00) := by decide
/-- V-TX-8 (R144): a sink that is not ready. -/
theorem test_sink_not_ready : (after (txState fun x => { x with state := .start }) {}).map
    (fun t => (t.out.txValid, t.out.txData, t.tx.state)) = some (true, 0xAA, .start) := by decide
/-- V-TX-1 (R146 to R149). -/
theorem test_header_bytes :
    (after (txState fun x => { x with state := .start }) { txReady := true }).map
      (fun t => (t.out.txData, t.tx.acc, t.tx.state)) = some (0xAA, 0x00, .flags) ∧
    (after (txState fun x => { x with state := .flags, flags := 4 }) { txReady := true }).map
      (fun t => (t.out.txData, t.tx.acc, t.tx.state)) = some (0x04, 0x04, .lenLo) ∧
    (after (txState fun x => { x with state := .lenLo, len := 0x0201, acc := 4 }) { txReady := true }).map
      (fun t => (t.out.txData, t.tx.acc, t.tx.state)) = some (0x01, 0x05, .lenHi) ∧
    (after (txState fun x => { x with state := .lenHi, len := 0x0201, acc := 5 }) { txReady := true }).map
      (fun t => (t.out.txData, t.tx.acc, t.tx.state)) = some (0x02, 0x07, .cmd) := by decide
/-- V-TX-1, V-TX-3 (R150): a payload follows, or the checksum. -/
theorem test_command_byte_sent :
    (after (txState fun x => { x with state := .cmd, cmd := 2, len := 1, acc := 5 }) { txReady := true }).map
      (fun t => (t.out.txData, t.tx.acc, t.tx.state)) = some (0x02, 0x07, .payload) ∧
    (after (txState fun x => { x with state := .cmd, acc := 4 }) { txReady := true }).map
      (fun t => (t.out.txData, t.tx.acc, t.tx.state)) = some (0x00, 0x04, .chk) := by decide
/-- V-TX-2 (R151): not the last payload byte, and the last. -/
theorem test_payload_byte_sent :
    (after (txState fun x => { x with state := .payload, len := 2, acc := 5 })
      { txReady := true, txPlValid := true, txPlData := 2 }).map
        (fun t => (t.out.txData, t.tx.acc, t.tx.cnt, t.tx.state)) = some (0x02, 0x07, 1, .payload) ∧
    (after (txState fun x => { x with state := .payload, len := 2, cnt := 1, acc := 7 })
      { txReady := true, txPlValid := true, txPlData := 0x7F }).map
        (fun t => (t.out.txData, t.tx.acc, t.tx.cnt, t.tx.state)) = some (0x7F, 0x78, 2, .chk) := by decide
/-- V-TX-2 (R152). -/
theorem test_checksum_byte_sent : (after (txState fun x => { x with state := .chk, acc := 0x78 }) { txReady := true }).map
    (fun t => (t.out.txValid, t.out.txData, t.tx.state)) = some (true, 0x78, .idle) := by decide

/-! Mapper and scaler (spec/95 sections 1, 4 and 5). -/

/-- V-SRC-1 (R200): rows 0 and 1 of the folded matrix. -/
theorem test_map_fold : (does (.mapAccept 0 59) (geometry .folded 120 8)).map beat = some (0, 59, 59, true, 0) ∧
    (does (.mapFold 0 60) (geometry .folded 120 8)).map beat = some (0, 119, 119, true, 0) := by decide
/-- V-MAP-3, V-MAP-5 (R200). -/
theorem test_map_fold_ends : (does (.mapFold 0 180) (geometry .folded 120 8)).map beat = some (1, 119, 239, true, 0) ∧
    (does (.mapFold 0 959) (geometry .folded 120 8)).map beat = some (7, 60, 900, true, 0) := by decide
/-- V-MAP-6 (R203). -/
theorem test_map_out_of_range : (does (.mapAccept 0 960) (geometry .folded 120 8)).map (fun t => (beat t, t.event)) =
    some ((0, 0, 0, true, 0x04), 0b10000) := by decide
/-- V-SRC-2, V-MAP-15 (R199). -/
theorem test_map_flat : (does (.mapFlat 0 125) (geometry .flat 120 8)).map beat = some (1, 5, 125, true, 0) ∧
    (does (.mapFlat 0 960) (geometry .flat 120 8)).map beat = some (0, 0, 0, true, 0x04) := by decide
/-- V-MAP-18, V-MAP-19 (R196). -/
theorem test_map_strip : (does (.mapStrip 3 59) (geometry .strip 60 4)).map beat = some (3, 59, 239, true, 0) ∧
    (does (.mapStrip 4 0) (geometry .strip 60 4)).map beat = some (0, 0, 0, true, 0x04) := by decide
/-- V-MAP-22, V-MAP-24 (R197). -/
theorem test_map_broadcast : (does (.mapStripBcast 7) (geometry .strip 60 4)).map beat = some (0, 7, 7, false, 0) ∧
    (does (.mapStripBcast 7) (geometry .strip 60 1)).map beat = some (0, 7, 7, true, 0) := by decide
/-- V-MAP-22 (R198, R202): the second beat, and the last. -/
theorem test_map_next_beat :
    (does .mapBcastNext { geometry .strip 60 4 with
      map := { w := 60, n := 4, valid := true, addr := 7, strip := 0, pos := 7, last := false, err := 0 } }).map beat =
        some (1, 7, 67, false, 0) ∧
    (does .mapBeat { geometry .strip 10 4 with
      map := { w := 60, n := 4, valid := true, addr := 127, strip := 2, pos := 7, last := false, err := 0 } }).map beat =
        some (3, 7, 187, true, 0) := by decide
/-- V-MAP-34 (R202): the last beat ends the request. -/
theorem test_map_last_beat :
    (after { State.reset with
      map := { w := 60, n := 4, valid := true, addr := 7, strip := 0, pos := 7, last := true, err := 0 } }
      { mapRspReady := true }).map (fun t => (t.map.valid, t.map.addr, t.out.mapReqReady)) =
        some (false, 7, false) := by decide
/-- V-MAP-25, V-MAP-29 (R192, R195). -/
theorem test_map_invalid_geometry :
    (does (.mapAccept 0 0) (geometry .folded 121 8)).map beat = some (0, 0, 0, true, 0x0B) ∧
    (does (.mapCfgErr 0 0) (geometry .strip 4096 16)).map beat = some (0, 0, 0, true, 0x0B) := by decide
/-- V-MAP-26 (R201). -/
theorem test_map_reserved_mode : (does (.mapRsvd 0 0) (geometry .reserved 120 8)).map beat =
    some (0, 0, 0, true, 0x0B) := by decide
/-- V-MAP-33 (R192). -/
theorem test_map_largest_geometry : (does (.mapAccept 0 0) (geometry .strip 4095 16)).map beat = some (0, 0, 0, true, 0) ∧
    statusWord (geometry .strip 4095 16) = 0x0100 := by decide
/-- V-SRC-3, V-SC-3, V-SC-8 (R206). -/
theorem test_scale : scaleValue 255 255 = 255 ∧ scaleValue 255 0 = 0 ∧ scaleValue 128 127 = 64 ∧ scaleValue 100 254 = 99 ∧
    scaleValue 127 128 = 63 := by decide
/-- V-SC-9 (R290). -/
theorem test_scale_uses_old_brightness :
    (after State.reset { scaleIn := 200, csrValid := true, csrWe := true, csrAddr := 9 }).map
      (fun t => (t.out.scaleOut, t.csr.brightness)) = some (200, 0) := by decide

/-! Registers, events, interrupt and reset (spec/95 sections 6 and 7). -/

/-- A register access. -/
def access (we : Bool) (a : BitVec 4) (d : Half) : Inputs := { csrValid := true, csrWe := we, csrAddr := a, csrWdata := d }

/-- What the sixteen registers read in a state. -/
def registers (s : State) : List (Option Half) :=
  (List.range 16).map fun a => (after s (access false (BitVec.ofNat 4 a) 0)).map (fun t => t.out.csrRdata)

/-- V-CSR-1 (R222 to R248). -/
theorem test_registers_after_reset : registers State.reset =
    [0x0001, 0x0400, 0, 0, 0, 0, 0, 0, 0, 0x00FF, 0, 0, 0, 0, 0, 0].map some := by decide
/-- The registers of a state with all of them set: `STATUS` as V-CSR-10, the matrix as V-SRC-1. -/
theorem test_registers_of_a_state : registers { geometry .folded 120 8 with
      event := 0x1F
      rx := { State.reset.rx with pending := true, chkErr := 0x1234, lastDrop := 9 } } =
    [0x0001, 0x0400, 0x1234, 0x001F, 0, 0x0108, 2, 120, 8, 0x00FF, 60, 16, 9, 0, 0, 0].map some := by decide
/-- V-CSR-8 (R223). -/
theorem test_write_control : (after State.reset (access true 0 0xFFFE)).map (fun t => t.csr.txResp) = some false := by
  decide
/-- V-CSR-2, V-CSR-3 (R225). -/
theorem test_write_max_payload : (after State.reset (access true 1 0xFFFF)).map (fun t => t.csr.maxPayload) = some 1024 ∧
    (after { State.reset with cfg := { State.reset.cfg with rxbufCap := 64 } } (access true 1 100)).map
      (fun t => t.csr.maxPayload) = some 64 := by decide
/-- V-CSR-4 (R229). -/
theorem test_write_event : (after { State.reset with event := 6 } (access true 3 2)).map (fun t => t.event) = some 4 := by
  decide
/-- V-CSR-5 (R265): a bit raised in the cycle wins over its clear. -/
theorem test_event_set_wins : (after { rxState (fun r => { r with state := .readChecksum, acc := 2 }) with event := 1 }
    { access true 3 0x1F with rxValid := true, rxData := 3 }).map (fun t => t.event) = some 1 := by decide
/-- V-CSR-12 (R231, R266): the interrupt follows from the next cycle. -/
theorem test_write_irq_en : (after { State.reset with event := 1 } (access true 4 1)).map
    (fun t => (t.csr.irqEn, t.out.irq)) = some (1, false) := by decide
/-- V-CSR-13 (R266). -/
theorem test_irq_of_pending_packet : (after { rxState (fun r => { r with pending := true }) with
    csr := { State.reset.csr with irqEn := 0x20 } } {}).map (fun t => t.out.irq) = some true := by decide
/-- R235, R237, V-CSR-7 (R239), R241. -/
theorem test_write_geometry : (after State.reset (access true 6 0xFFFE)).map (fun t => t.csr.mode) = some .folded ∧
    (after State.reset (access true 7 0x0078)).map (fun t => t.csr.physWidth) = some 0x78 ∧
    (after State.reset (access true 8 0x0028)).map (fun t => t.csr.stripCount) = some 8 ∧
    (after State.reset (access true 9 0x017F)).map (fun t => t.csr.brightness) = some 0x7F := by decide
/-- Every register after a write of 1 to a register that ignores it. -/
def ignored (a : BitVec 4) : Bool :=
  decide ((after State.reset (access true a 1)).map (fun t => (t.csr, t.event, t.rx)) =
    some (State.reset.csr, State.reset.event, State.reset.rx))
/-- V-CSR-6, V-CSR-9 (R227, R233, R243, R245, R247, R249). -/
theorem test_writes_ignored : [2, 5, 0xA, 0xB, 0xC, 0xD, 0xE, 0xF].all ignored = true := by decide
/-- V-RST-3, V-RST-1 (R281, R282). -/
theorem test_reset_cycle : (after { rxState (fun r => { r with pending := true, chkErr := 5, buf := [(0, 0xFF)] }) with
      event := 0x1F, csr := { State.reset.csr with txResp := false, brightness := 0x10 } } { rst := true }).map
    (fun t => (t.rx, t.event, t.csr, t.out.pktValid, t.out.rxReady)) =
      some ({ State.reset.rx with buf := [(0, 0xFF)] }, 0, State.reset.csr, true, false) := by decide
/-- R250: no access reads 0. -/
theorem test_no_access : (does .csrIdle { State.reset with out := { State.reset.out with csrRdata := 7 } }).map
    (fun t => t.out.csrRdata) = some 0 := by decide

/-! A word placed where the step takes its operation runs it. -/

theorem test_fetched_word_runs : (nextState? (step (State.reset.withFetchWord 16 0x102))).map
      (fun t => (t.rx.flags, t.rx.state)) = some (0x02, .readLengthLow) ∧
    (nextState? (step (State.reset.withFetchWord 8 0x09))).map (fun t => t.out.csrRdata) = some 0x00FF ∧
    (nextState? (step (State.reset.withFetchWord 8 0x30))).map (fun t => t.rx.cmd) = some 0x30 := by decide

/-! ## Witnesses: for every statement with hypotheses, a state and operands that meet them, clause by clause -/

/-- An outcome that has a next state is one. -/
theorem next_of_isSome {r : Result} (h : (nextState? r).isSome = true) : ∃ t, r = .next t := by
  cases r with
  | next s => exact ⟨s, rfl⟩
  | fault f => simp [nextState?] at h
  | refused f => simp [nextState?] at h

/-- A cycle that offers a byte, a tick, a request to each unit and a register write. -/
def busyInputs : Inputs :=
  { tick := true, rxValid := true, rxData := 0x55, txReady := true, txReqValid := true, txReqLen := 3, plRdEn := true,
    mapReqValid := true, csrValid := true, csrWe := true, csrAddr := 1, csrWdata := 5 }

/-- The state after reset before such a cycle. -/
def busyState : State := State.reset.fed [busyInputs]

/-- A state in the middle of a packet of two payload bytes, one of them received, with an encoder that sends a payload and
a broadcast under way, before a cycle that offers the second byte. -/
def middleState : State :=
  { State.reset with
    rx := { State.reset.rx with
      state := .readPayload, flags := 0x02, len := 2, cmd := 0x05, idx := 1, acc := 0x31, buf := [(0, 0x34)] }
    tx := { state := .payload, flags := 0, len := 3, cmd := 1, cnt := 2, acc := 9 }
    map := { w := 60, n := 4, valid := true, addr := 67, strip := 1, pos := 7, last := false, err := 0 }
    env := [byteIn 0x12] }

/-- A state with a packet pending, one payload byte long. -/
def pendingState : State :=
  { rxState (fun r => { r with pending := true, flags := 2, len := 1, cmd := 5, chk := 0x32, buf := [(0, 0x34)] }) with
    env := [{ byteIn 0xAA with pktAck := true }] }

/-- The state after reset with a maximum payload of 3. -/
def smallState : State := { State.reset with csr := { State.reset.csr with maxPayload := 3 } }

theorem middle_rxbuf : RxbufOk middleState := by
  refine ⟨by decide, fun a h => ?_⟩
  have h1 : 1024 ≤ a := h
  have h2 : a ≠ 0 := by omega
  simp [middleState, Memory.find, h2]

theorem middle_inv : Inv middleState where
  params := by constructor <;> decide
  rxbuf := middle_rxbuf
  maxPayload := by unfold MaxPayloadOk; decide
  rx := by constructor <;> decide
  tx := by constructor <;> decide
  map := by constructor <;> decide

theorem small_inv : Inv smallState where
  params := by constructor <;> decide
  rxbuf := ⟨by decide, fun a _ => by simp [smallState, State.reset, RxUnit.reset, Memory.find]⟩
  maxPayload := by unfold MaxPayloadOk; decide
  rx := by constructor <;> decide
  tx := by constructor <;> decide
  map := by constructor <;> decide

theorem middle_checksum : ChecksumInv middleState where
  accumulator := by
    change (0x31 : Byte) = packetXor 2 2 5 (rxbufBytes middleState 1)
    decide
  delivered := by unfold pendingChecksumOk; decide

theorem busy_next : ∃ t, step busyState = .next t := next_of_isSome (by decide)
theorem middle_next : ∃ t, step middleState = .next t := next_of_isSome (by decide)

theorem witness_DecodeOfEncode : WellFormed (.rxWsSkip 0xAB) ∧ WellFormed (.mapStrip 0xFE 0xFFFF) ∧
    WellFormed (.txReqRefuse 0xFFFF) := by simp [WellFormed, Config.startByte, Config.broadcastStrip]

theorem witness_StepRunsTheDecodedOperations : dutyBroken busyState (currentInputs busyState) = none := by decide

/-- With an idle register port, and with a register write, which is then the one word. -/
theorem witness_OneOperationCycle :
    (dutyBroken (State.reset.fed [tickIn]) tickIn = none ∧
      opWords (State.reset.fed [tickIn]) tickIn = scaleWords tickIn ++
        ([{ port := .csrIdle, word := 0, cond := false, operand := 0 }] ++
          [{ port := .tick, word := 1, cond := false, operand := 0 }]) ∧
      reads .tick 1 false 0 = some .rxTick) ∧
    opWords (State.reset.fed [access true 1 5]) (access true 1 5) = scaleWords (access true 1 5) ++
      ([] ++ [{ port := .csr, word := 0x11, cond := false, operand := 5 }]) := by decide

theorem witness_StepIsTheLockstepCycle : dutyBroken middleState (currentInputs middleState) = none ∧
    (currentInputs middleState).rst = false ∧ takesPayload middleState (currentInputs middleState) = true ∧
    middleState.rx.idx.toNat < middleState.cfg.rxbufCap := by decide

/-- The state after reset with these offers outstanding, before a cycle with these inputs. -/
def offeredState (h : Held) (i : Inputs) : State := { State.reset with held := h, env := [i] }

/-- One offer outstanding on each channel. -/
def allOffers : Held := { rx := some 7, txReq := some (1, 2, 3), txPl := some 5, mapReq := some (4, 9) }

/-- On each channel the source falls silent, or changes one field of its offer; the last in a cycle with `rst = 1`. -/
theorem witness_WithdrawnByte :
    ((offeredState allOffers {}).held.rx = some 7 ∧ (currentInputs (offeredState allOffers {})).rxValid = false) ∧
    ((offeredState allOffers {}).held.txReq = some (1, 2, 3) ∧
      (currentInputs (offeredState allOffers {})).txReqValid = false) ∧
    ((offeredState allOffers {}).held.txPl = some 5 ∧ (currentInputs (offeredState allOffers {})).txPlValid = false) ∧
    ((offeredState allOffers {}).held.mapReq = some (4, 9) ∧
      (currentInputs (offeredState allOffers {})).mapReqValid = false) ∧
    (currentInputs (offeredState allOffers (byteIn 8))).rxData ≠ 7 ∧
    (currentInputs (offeredState allOffers { rst := true })).rxValid = false ∧
    (currentInputs (offeredState allOffers { rst := true })).rst = true := by decide

/-- The next state of a cycle that leaves offers, and a payload byte owed to no packet: with no request, with a request of
length 0, with one that is too long, in a reset cycle, while the checksum is sent, while an empty packet is; and the byte
that a reset left, beside a new request. -/
theorem witness_PayloadByteNotOwed :
    (after State.reset { rst := true, rxValid := true, rxData := 7 }).isSome = true ∧
    [({ txPlValid := true } : Inputs), { txPlValid := true, txReqValid := true },
      { txPlValid := true, txReqValid := true, txReqLen := 1025 }, { txPlValid := true, rst := true }].all (fun i =>
        offersKept (State.reset.fed [i]) i && decide (State.reset.tx.state = .idle) && decide (State.reset.held.txPl = none))
      = true ∧
    offersKept (txState fun x => { x with state := .chk }) { txPlValid := true } = true ∧
    ((txState fun x => { x with state := .cmd }).tx.len = 0 ∧
      offersKept (txState fun x => { x with state := .cmd }) { txPlValid := true } = true) ∧
    offersKept (offeredState { Held.none with txPl := some 5 }
      { txPlValid := true, txPlData := 5, txReqValid := true, txReqLen := 1 })
      { txPlValid := true, txPlData := 5, txReqValid := true, txReqLen := 1 } = true := by decide

/-- R11 (1) with R281: a byte offered in a reset cycle is not taken, so it is still outstanding after it; a reset cycle that
drops it is refused. -/
theorem test_offer_across_reset :
    (after State.reset { rst := true, rxValid := true, rxData := 7 }).map (fun t => t.held.rx) = some (some 7) ∧
    dutyBroken (offeredState { Held.none with rx := some 7 } { rst := true }) { rst := true } = some .offerWithdrawn := by
  decide

theorem witness_NoTrap : Inv middleState ∧ dutyBroken middleState (currentInputs middleState) = none :=
  ⟨middle_inv, by decide⟩

/-- For the statements about any next state: a cycle in which every unit acts, and one in the middle of a packet. -/
theorem witness_next_state : (∃ t, step busyState = .next t) ∧ (currentInputs busyState).rst = false ∧
    (∃ t, step middleState = .next t) ∧ (currentInputs middleState).rst = false :=
  ⟨busy_next, by decide, middle_next, by decide⟩

/-- Each of the three causes. -/
theorem witness_ReceiveDropsAreRecorded :
    checksumFails (rxState fun r => { r with state := .readChecksum }) (byteIn 3) = true ∧
    oversize (rxState fun r => { r with state := .readLengthHigh, len := 1 }) (byteIn 4) = true ∧
    timesOut (rxState fun r => { r with state := .readFlags, idle := 10 }) tickIn = true := by decide

theorem witness_RxbufChanges : (∃ t, step middleState = .next t) ∧
    takesPayload middleState (currentInputs middleState) = true ∧
    (nextState? (step middleState)).map (fun t => decide (Memory.find t.rx.buf 1 = some 0x12)) = some true :=
  ⟨middle_next, by decide, by decide⟩

theorem witness_PendingPacketIsStable : pendingState.rx.pending = true ∧ (currentInputs pendingState).rst = false ∧
    ∃ t, step pendingState = .next t := ⟨by decide, by decide, next_of_isSome (by decide)⟩

theorem witness_StalledUnitsHold : middleState.tx.state = .payload ∧ (currentInputs middleState).txReady = false ∧
    (currentInputs middleState).txPlValid = false ∧ middleState.map.valid = true ∧
    (currentInputs middleState).mapRspReady = false ∧ (currentInputs middleState).plRdEn = false ∧
    ∃ t, step middleState = .next t := ⟨by decide, by decide, by decide, by decide, by decide, by decide, middle_next⟩

/-- A write in a busy cycle: of a register, of `EVENT`, at an ignored address, and in a cycle with `rst = 1`. -/
theorem witness_RegisterWriteIsSeenNextCycle : busyInputs.csrValid = true ∧ busyInputs.csrWe = true ∧
    busyInputs.rst = false ∧
    [busyInputs, { busyInputs with csrAddr := 3 }, { busyInputs with csrAddr := 0xF }, { busyInputs with rst := true }].all
      (fun i => (nextState? (cycle busyState i)).isSome && (nextState? (cycle busyState { i with csrValid := false })).isSome)
      = true := by decide

theorem witness_EveryCommandByte :
    (fireRx (rxState fun r => { r with state := .readCommand }) (byteIn 0xFF) = true ∧
      (after (rxState fun r => { r with state := .readCommand }) (byteIn 0xFF)).isSome = true) ∧
    (fireTxReq busyState busyInputs = true ∧ busyInputs.txReqLen.toNat ≤ busyState.csr.maxPayload.toNat) ∧
    (after (txState fun x => { x with state := .cmd, cmd := 0xFF }) {}).isSome = true := by decide

/-- Operations that do change what the later clauses speak of, and elements that their rows do not list. -/
theorem witness_OnlyNamedOperationsWrite :
    (does (.rxChkBad 1) State.reset).map (fun t => (t.rx.chkErr, t.rx.lastDrop)) = some (1, 1) ∧
    (does (.rxPayload 1) State.reset).map (fun t => t.rx.buf) = some [(0, 1)] ∧
    (does (.rxChkOk 1) State.reset).map (fun t => t.rx.pending) = some true ∧
    (does (.plRd 0) pendingState).map (fun t => t.rx.plRdQ) = some 0x34 ∧
    (does (.csrWrIrqEn 1) State.reset).map (fun t => t.csr.irqEn) = some 1 ∧
    (does (.mapAccept 0 0) (geometry .flat 4 2)).map (fun t => t.map.w) = some 4 ∧
    (does (.txReq 0 0 5) State.reset).map (fun t => t.tx.len) = some 5 ∧
    Element.txAcc ∉ writes (.rxChkBad 1) ∧ Element.event ∉ writes (.txReq 0 0 5) ∧ Element.rspValid ∉ writes (.plRd 0) := by
  decide

/-- A reset cycle in the middle of a packet, with inputs on every port, in which no offer is outstanding. -/
theorem witness_ResetCycle : (currentInputs (middleState.fed [{ busyInputs with rst := true }])).rst = true ∧
    dutyBroken (middleState.fed [{ busyInputs with rst := true }])
      (currentInputs (middleState.fed [{ busyInputs with rst := true }])) = none := by decide

theorem witness_ResetCycleEstablishesTheInvariant : LegalParams middleState.cfg ∧
    RxbufOk (middleState.fed [{ rst := true }]) ∧ (currentInputs (middleState.fed [{ rst := true }])).rst = true ∧
    dutyBroken (middleState.fed [{ rst := true }]) (currentInputs (middleState.fed [{ rst := true }])) = none :=
  ⟨middle_inv.params, ⟨middle_rxbuf.canonical, middle_rxbuf.inRange⟩, by decide⟩

theorem witness_StepKeepsTheInvariants : Inv middleState ∧ ChecksumInv middleState ∧ ∃ t, step middleState = .next t :=
  ⟨middle_inv, middle_checksum, middle_next⟩

/-- The last index that exists, and the first that does not. -/
theorem witness_RxPayloadBytes :
    (rxState fun r => { r with idx := 1023 }).rx.idx.toNat < (rxState fun r => { r with idx := 1023 }).cfg.rxbufCap ∧
    (rxState fun r => { r with idx := 1024 }).cfg.rxbufCap ≤ (rxState fun r => { r with idx := 1024 }).rx.idx.toNat := by
  decide

theorem witness_CfgValid : cfgValid (geometry .folded 121 8) = false ∧ cfgValid (geometry .folded 120 8) = true := by decide

/-- In range at the last pixel; out of range by strip and by index. -/
theorem witness_MapStripRows : (geometry .strip 4095 16).csr.mode = .strip ∧ cfgValid (geometry .strip 4095 16) = true ∧
    (¬ ((15 : Byte).toNat ≥ stripsOf (geometry .strip 4095 16) ∨ (4094 : Half).toNat ≥ widthOf (geometry .strip 4095 16))) ∧
    (16 : Byte).toNat ≥ stripsOf (geometry .strip 4095 16) ∧ (4095 : Half).toNat ≥ widthOf (geometry .strip 4095 16) := by
  decide

/-- In range at the last pixel, and out of range at the next index, in both matrix modes. -/
theorem witness_MapMatrixRows : cfgValid (geometry .flat 120 8) = true ∧ (geometry .flat 120 8).csr.mode = .flat ∧
    cfgValid (geometry .folded 120 8) = true ∧ (geometry .folded 120 8).csr.mode = .folded ∧
    (959 : Half).toNat < widthOf (geometry .folded 120 8) * stripsOf (geometry .folded 120 8) ∧
    (960 : Half).toNat ≥ widthOf (geometry .flat 120 8) * stripsOf (geometry .flat 120 8) := by decide

theorem witness_MapConfigurationErrors : (geometry .reserved 120 8).csr.mode = .reserved := by decide

/-- A beat that is the last of its request, and one that is not. -/
theorem witness_MapBeats : middleState.map.last = false ∧ (State.reset.setMap { State.reset.map with last := true }).map.last = true := by
  decide

theorem witness_MappedPixelIsInRange : (∃ t, exec (.mapAccept 0 959) (geometry .folded 120 8) = .next t) ∧
    (does (.mapAccept 0 959) (geometry .folded 120 8)).map (fun t => t.map.err) = some 0 :=
  ⟨next_of_isSome (by decide), by decide⟩

theorem witness_FlatMap : (geometry .flat 120 8).csr.mode = .flat ∧ cfgValid (geometry .flat 120 8) = true ∧
    (959 : Half).toNat < widthOf (geometry .flat 120 8) * stripsOf (geometry .flat 120 8) := by decide

/-- A forward and a backward row of the folded matrix, at the first and the last column. -/
theorem witness_FoldedMap : (geometry .folded 120 8).csr.mode = .folded ∧ cfgValid (geometry .folded 120 8) = true ∧
    (239 : Half).toNat < widthOf (geometry .folded 120 8) * stripsOf (geometry .folded 120 8) ∧
    0 < widthOf (geometry .folded 120 8) / 2 ∧ 59 < widthOf (geometry .folded 120 8) / 2 ∧
    (120 : Half).toNat = 2 * 1 * (widthOf (geometry .folded 120 8) / 2) + 0 ∧
    (239 : Half).toNat = (2 * 1 + 1) * (widthOf (geometry .folded 120 8) / 2) + 59 := by decide

theorem witness_WireCommands : (Instr.cmdNop, (0x00 : Byte)) ∈ [(Instr.cmdNop, (0x00 : Byte)), (.cmdInputEvent, 0x53)] ∧
    State.reset.rx.len = 0 ∧ middleState.rx.len ≠ 0 := by decide

/-- V-MAP-35's writes: the width changes while the broadcast runs. -/
theorem witness_Broadcast : (geometry .strip 60 4).csr.mode = .strip ∧ cfgValid (geometry .strip 60 4) = true ∧
    (59 : Half).toNat < widthOf (geometry .strip 60 4) ∧ (geometry .strip 60 4).map.valid = false ∧
    ([(7, 10), (8, 0), (6, 3), (3, 0xFFFF), (0, 0)] : List (BitVec 4 × Half)).length = stripsOf (geometry .strip 60 4) + 1 := by
  decide

theorem witness_ScaleProperties : (3 : Byte) ≤ 3 ∧ (3 : Byte) ≤ 255 ∧ (0 : Byte) ≤ 255 := by decide

theorem witness_RegisterWrites : LegalParams { rxbufCap := 1, timeoutTicks := 1 } ∧ LegalParams State.reset.cfg := by
  constructor <;> constructor <;> decide

/-- A payload of the greatest length allowed, and the empty one. -/
theorem witness_PacketIsDelivered : Inv smallState ∧ smallState.rx.state = .waitStart ∧ smallState.rx.pending = false ∧
    ([0xFF, 0x00, 0x80] : List Byte).length ≤ smallState.csr.maxPayload.toNat ∧
    ([] : List Byte).length ≤ smallState.csr.maxPayload.toNat := ⟨small_inv, by decide⟩

/-- Errors that do not cancel, and errors that do. -/
theorem witness_ChecksumErrors : Inv smallState ∧ smallState.rx.state = .waitStart ∧ smallState.rx.pending = false ∧
    ([0xFF] : List Byte).length ≤ smallState.csr.maxPayload.toNat ∧ ([0x10] : List Byte).length = ([0xFF] : List Byte).length ∧
    (0 : Byte) ^^^ 0 ^^^ xorBytes [0x10] ^^^ 0 ≠ 0 ∧ (0x10 : Byte) ^^^ 0 ^^^ xorBytes [0x10] ^^^ 0 = 0 :=
  ⟨small_inv, by decide⟩

theorem witness_Timeout :
    timeoutRuns (rxState fun r => { r with state := .readLengthHigh }).rx.state = true ∧
    (rxState fun r => { r with state := .readLengthHigh }).rx.idle = 0 ∧ 10 ≤ State.reset.cfg.timeoutTicks := by decide

theorem witness_RequestIsSent : Inv smallState ∧ smallState.tx.state = .idle ∧
    ([0xAA, 0x55, 0x00] : List Byte).length ≤ smallState.csr.maxPayload.toNat := ⟨small_inv, by decide⟩

theorem witness_RoundTrip : Inv smallState ∧ smallState.tx.state = .idle ∧ smallState.rx.state = .waitStart ∧
    smallState.rx.pending = false ∧ ([0x05] : List Byte).length ≤ smallState.csr.maxPayload.toNat := ⟨small_inv, by decide⟩

end Sys2Proof.Tests
end

section
/-! PROOFS of the statements of spec/00_scope.md: what a step runs (R10, R21) and which cycles it refuses (R11). -/

namespace Sys2Proof

/-! ## The decoder gives well-formed operations only -/

theorem decodeSignal_ok_iff (w : BitVec 16) (i j : Instr) : decodeSignal w i = .ok j ↔ w = 1 ∧ i = j := by
  unfold decodeSignal
  split <;> simp_all

theorem decodeRxByte_wellFormed (st : Nat) (b : Byte) (c : Bool) : WellFormed (decodeRxByte st b c) := by
  unfold decodeRxByte
  split
  case h_1 =>
    split
    · trivial
    · assumption
  all_goals cases c <;> trivial

theorem decodeTxByte_wellFormed {st : Nat} {p : Byte} {i : Instr} (h : decodeTxByte st p = .ok i) : WellFormed i := by
  unfold decodeTxByte at h
  split at h <;> cases h <;> trivial

theorem decodeMapRow_wellFormed (mode : Nat) (strip : Byte) (l : Half) (c : Bool) :
    WellFormed (decodeMapRow mode strip l c) := by
  unfold decodeMapRow
  split
  · split
    case h_1 =>
      split
      · trivial
      · assumption
    all_goals trivial
  · trivial

theorem decodeCsr_wellFormed (w : Nat) (d : Half) : WellFormed (decodeCsr w d) := by
  unfold decodeCsr
  split <;> trivial

theorem decodeCommand_wellFormed {w : Nat} {i : Instr} (h : decodeCommand w = .ok i) : WellFormed i := by
  unfold decodeCommand at h
  split at h <;> cases h <;> trivial

/-- The one signal whose decoder checks an operand: a refused request is never of length 0 (R143). -/
theorem decodePort_txReq_wellFormed {w : BitVec 16} {c : Bool} {o : BitVec 32} {i : Instr}
    (h : decodePort .txReq w c o = .ok i) : WellFormed i := by
  simp only [decodePort] at h
  split at h
  · obtain ⟨-, rfl⟩ := (decodeSignal_ok_iff _ _ _).mp h
    trivial
  · split at h
    · cases h
    · obtain ⟨-, rfl⟩ := (decodeSignal_ok_iff _ _ _).mp h
      assumption

theorem decodePort_wellFormed {p : Port} {w : BitVec 16} {c : Bool} {o : BitVec 32} {i : Instr}
    (h : decodePort p w c o = .ok i) : WellFormed i := by
  cases p with
  | rxByte => cases h; exact decodeRxByte_wellFormed _ _ _
  | txByte => exact decodeTxByte_wellFormed h
  | txReq => exact decodePort_txReq_wellFormed h
  | mapRow => cases h; exact decodeMapRow_wellFormed _ _ _ _
  | csr => cases h; exact decodeCsr_wellFormed _ _
  | command => exact decodeCommand_wellFormed h
  | mapReq => cases h; trivial
  | scale => cases h; trivial
  | csrIdle =>
    simp only [decodePort] at h
    split at h <;> cases h
    trivial
  | tick | timeout | pktAck | plRd | mapRsp | mapNext | rst =>
    obtain ⟨-, rfl⟩ := (decodeSignal_ok_iff _ _ _).mp h
    trivial

/-- Whatever the decoder reads from a word, the operation is well-formed. -/
theorem decode_wellFormed {w : OpWord} {i : Instr} (h : decode w = .ok i) : WellFormed i := by
  unfold decode at h
  split at h
  · cases h
  · exact decodePort_wellFormed h

theorem decodeAll_wellFormed {ws : List OpWord} {is : List Instr} (h : decodeAll ws = .ok is) :
    ∀ i ∈ is, WellFormed i := by
  induction ws generalizing is with
  | nil => cases h; simp
  | cons w ws ih =>
    simp only [decodeAll] at h
    cases hw : decode w with
    | error e => simp [hw] at h
    | ok i =>
      cases hr : decodeAll ws with
      | error e => simp [hw, hr] at h
      | ok js =>
        simp only [hw, hr, Except.ok.injEq] at h
        subst h
        exact List.forall_mem_cons.mpr ⟨decode_wellFormed hw, ih hr⟩

/-! ## No word of a cycle without `rst` decodes to the reset -/

theorem decodeRxByte_ne_reset (st : Nat) (b : Byte) (c : Bool) : decodeRxByte st b c ≠ .reset := by
  unfold decodeRxByte
  repeat' split
  all_goals nofun

theorem decodeCsr_ne_reset (w : Nat) (d : Half) : decodeCsr w d ≠ .reset := by
  unfold decodeCsr
  split <;> nofun

end Sys2Proof

namespace Sys2Proof.Machine

/-! ## The operations of a cycle -/

theorem csrOps_ne_reset (i : Inputs) : csrOps i ≠ .reset := by
  unfold csrOps
  split
  · exact decodeCsr_ne_reset _ _
  · nofun

theorem txByteOp_ne_reset (t : TxState) (p : Byte) : txByteOp t p ≠ .reset := by cases t <;> nofun

theorem reset_notMem_csrEarlyOps (i : Inputs) : Instr.reset ∉ csrEarlyOps i := by
  unfold csrEarlyOps
  split <;> simp [(csrOps_ne_reset i).symm]

theorem reset_notMem_csrLateOps (i : Inputs) : Instr.reset ∉ csrLateOps i := by
  unfold csrLateOps
  split <;> simp [(csrOps_ne_reset i).symm]

theorem reset_notMem_rxOps (s : State) (i : Inputs) : Instr.reset ∉ rxOps s i := by
  unfold rxOps
  split
  · simp [(decodeRxByte_ne_reset _ _ _).symm]
  · split <;> simp

theorem reset_notMem_txOps (s : State) (i : Inputs) : Instr.reset ∉ txOps s i := by
  unfold txOps
  split
  · split <;> simp
  · split <;> simp [(txByteOp_ne_reset _ _).symm]

theorem reset_notMem_mapOps (s : State) (i : Inputs) : Instr.reset ∉ mapOps s i := by
  unfold mapOps
  split
  · simp
  · split <;> simp

/-- A cycle with `rst = 0` does not select the reset (R281). -/
theorem reset_notMem_selectedOps {i : Inputs} (s : State) (h : i.rst = false) : Instr.reset ∉ selectedOps s i := by
  have hPlRd : Instr.reset ∉ plRdOps i := by unfold plRdOps; split <;> simp
  have hAck : Instr.reset ∉ ackOps s i := by unfold ackOps; split <;> simp
  simp [selectedOps, h, reset_notMem_csrEarlyOps, reset_notMem_csrLateOps, reset_notMem_rxOps, reset_notMem_txOps,
    reset_notMem_mapOps, hPlRd, hAck]

theorem selectedOps_of_rst {i : Inputs} (s : State) (h : i.rst = true) :
    selectedOps s i = [.scale i.scaleIn, .reset] := by
  simp [selectedOps, h]

/-- Settles O5: the words of every cycle decode (`decodeAll_opWords`), and the decoder gives well-formed operations
only. -/
theorem stepRunsTheDecodedOperations : Obligations.StepRunsTheDecodedOperations := by
  intro s hDuty
  have hDecode := decodeAll_opWords s (currentInputs s)
  exact ⟨selectedOps s (currentInputs s), hDecode, decodeAll_wellFormed hDecode, cycle_eq_runOps _ _ hDuty⟩

/-! ## A cycle that selects one operation -/

theorem runOps_singleton (i : Instr) (s : State) : runOps [i] s = exec i s := by
  simp only [runOps]
  cases exec i s <;> rfl

/-- The scaled value already stands on `scale_out` when a cycle's operations begin (R206). -/
theorem exec_scale_beginCycle (s : State) (i : Inputs) :
    exec (.scale i.scaleIn) (beginCycle s i) = .next (beginCycle s i) := rfl

/-- In a cycle whose `csr_rdata` is 0, an idle register port changes nothing (R250). -/
theorem exec_csrIdle_beginCycle {s : State} {i : Inputs} (h : (outputs s i).csrRdata = 0) :
    exec .csrIdle (beginCycle s i) = .next (beginCycle s i) := by
  have hOut : { outputs s i with csrRdata := 0 } = outputs s i := by rw [← h]
  change Host.Outcome.next { beginCycle s i with out := { outputs s i with csrRdata := 0 } } = _
  rw [hOut]
  rfl

theorem csrRdata_of_no_read {s : State} {i : Inputs} (h : (!i.rst && i.csrValid && !i.csrWe) = false) :
    (outputs s i).csrRdata = 0 := by
  simp [outputs, h]

/-- A cycle that reads a register presents the read right after the scaler's word (R103, R221). -/
theorem opWords_of_read {s : State} {i : Inputs} (h : (!i.rst && i.csrValid && !i.csrWe) = true) :
    ∃ ws, opWords s i = scaleWords i ++ (csrWord false i.csrAddr i.csrWdata :: ws) := by
  simp only [Bool.and_eq_true, Bool.not_eq_true'] at h
  obtain ⟨⟨hRst, hValid⟩, hWe⟩ := h
  simp [opWords, csrEarlyWords, writesConfig, csrWordOf, hRst, hValid, hWe]

/-- A cycle whose second word is that of the idle register port drives 0 on `csr_rdata`. -/
theorem csrRdata_of_idleWord {s : State} {i : Inputs} {ws : List OpWord}
    (h : opWords s i = scaleWords i ++ ({ port := .csrIdle, word := 0, cond := false, operand := 0 } :: ws)) :
    (outputs s i).csrRdata = 0 := by
  cases hRead : (!i.rst && i.csrValid && !i.csrWe) with
  | false => exact csrRdata_of_no_read hRead
  | true =>
    obtain ⟨ws', hWords⟩ := opWords_of_read (s := s) hRead
    rw [hWords] at h
    have hHead := (List.cons.inj (List.append_cancel_left h)).1
    exact absurd (congrArg OpWord.port hHead) nofun

/-- A cycle whose operations before its last one leave the state as the cycle begins is `exec` of the last one. -/
theorem step_eq_exec_last {s : State} {pre : List OpWord} {w : OpWord} {is : List Instr} {i : Instr}
    (hDuty : dutyBroken s (currentInputs s) = none)
    (hWords : opWords s (currentInputs s) = scaleWords (currentInputs s) ++ (pre ++ [w]))
    (hPre : decodeAll pre = .ok is)
    (hRun : runOps is (beginCycle s (currentInputs s)) = .next (beginCycle s (currentInputs s)))
    (hw : decode w = .ok i) : step s = exec i (beginCycle s (currentInputs s)) := by
  have hScale : decodeAll (scaleWords (currentInputs s)) = .ok [.scale (currentInputs s).scaleIn] :=
    decodeAll_single _ _ (decode_scaleWord _)
  have hAll : decodeAll (opWords s (currentInputs s)) = .ok ([.scale (currentInputs s).scaleIn] ++ (is ++ [i])) := by
    rw [hWords]
    exact decodeAll_append _ _ _ _ hScale (decodeAll_append _ _ _ _ hPre (decodeAll_single _ _ hw))
  have hOps := Except.ok.inj ((decodeAll_opWords s (currentInputs s)).symm.trans hAll)
  calc step s = runOps (selectedOps s (currentInputs s)) (beginCycle s (currentInputs s)) := cycle_eq_runOps _ _ hDuty
    _ = runOps (is ++ [i]) (beginCycle s (currentInputs s)) := by
      rw [hOps, List.singleton_append, runOps_cons_next _ _ _ _ (exec_scale_beginCycle _ _)]
    _ = exec i (beginCycle s (currentInputs s)) := by rw [runOps_append _ _ _ _ hRun, runOps_singleton]

/-- Settles O6: the scaler and the idle register port, which run before the one operation, leave the state as the cycle
begins. -/
theorem oneOperationCycleIsItsExec : Obligations.OneOperationCycleIsItsExec := by
  intro s pre w i hDuty hPre hWords hw
  rcases hPre with rfl | rfl
  · exact step_eq_exec_last hDuty hWords rfl rfl hw
  · refine step_eq_exec_last hDuty hWords (decodeAll_single _ _ decode_csrIdleWord) ?_ hw
    rw [runOps_singleton]
    exact exec_csrIdle_beginCycle (csrRdata_of_idleWord hWords)

/-! ## What no operation of a cycle changes -/

/-- The model's own fields and the outputs that no operation but the reset drives: all but `tx_valid`, `tx_data`,
`scale_out` and `csr_rdata`, which stand here at 0. -/
structure CycleFrame where
  /-- The implementation parameters. -/
  cfg : Params
  /-- The inputs to come. -/
  env : List Inputs
  /-- The offers not yet taken. -/
  held : Held
  /-- The outputs. -/
  ports : Outputs

/-- The frame of a state. -/
def State.cycleFrame (s : State) : CycleFrame :=
  { cfg := s.cfg
    env := s.env
    held := s.held
    ports := { s.out with txValid := false, txData := 0, scaleOut := 0, csrRdata := 0 } }

@[simp] theorem cycleFrame_setRx (s : State) (r : RxUnit) : (s.setRx r).cycleFrame = s.cycleFrame := rfl
@[simp] theorem cycleFrame_setTx (s : State) (x : TxUnit) : (s.setTx x).cycleFrame = s.cycleFrame := rfl
@[simp] theorem cycleFrame_setMap (s : State) (m : MapUnit) : (s.setMap m).cycleFrame = s.cycleFrame := rfl
@[simp] theorem cycleFrame_setCsr (s : State) (c : CsrUnit) : (s.setCsr c).cycleFrame = s.cycleFrame := rfl
@[simp] theorem cycleFrame_setEvent (s : State) (e : BitVec 5) : (s.setEvent e).cycleFrame = s.cycleFrame := rfl
@[simp] theorem cycleFrame_sendByte (b : Byte) (s : State) : (sendByte b s).cycleFrame = s.cycleFrame := rfl
@[simp] theorem cycleFrame_sendHeader (b : Byte) (n : TxState) (s : State) :
    (sendHeader b n s).cycleFrame = s.cycleFrame := rfl
@[simp] theorem cycleFrame_raiseDrop (code : Byte) (s : State) : (raiseDrop code s).cycleFrame = s.cycleFrame := rfl
@[simp] theorem cycleFrame_countTick (s : State) : (countTick s).cycleFrame = s.cycleFrame := rfl
@[simp] theorem cycleFrame_latchGeometry (s : State) : (latchGeometry s).cycleFrame = s.cycleFrame := rfl
@[simp] theorem cycleFrame_errorBeat (code : Byte) (s : State) : (errorBeat code s).cycleFrame = s.cycleFrame := rfl
@[simp] theorem cycleFrame_loadBeat (strip pos addr : Nat) (last : Bool) (err : Byte) (s : State) :
    (loadBeat strip pos addr last err s).cycleFrame = s.cycleFrame := rfl
@[simp] theorem cycleFrame_nextBroadcastBeat (s : State) : (nextBroadcastBeat s).cycleFrame = s.cycleFrame := rfl

@[simp] theorem cycleFrame_applyMapRow (strip : Byte) (l : Half) (s : State) :
    (applyMapRow strip l s).cycleFrame = s.cycleFrame := by
  rw [applyMapRow_eq]
  rfl

theorem cycleFrame_mapStripBeat (strip : Byte) (l : Half) (s : State) :
    (mapStripBeat strip l s).cycleFrame = s.cycleFrame := by
  unfold mapStripBeat
  split <;> simp

theorem cycleFrame_mapBroadcastBeat (l : Half) (s : State) : (mapBroadcastBeat l s).cycleFrame = s.cycleFrame := by
  unfold mapBroadcastBeat
  split <;> simp

theorem cycleFrame_mapFlatBeat (l : Half) (s : State) : (mapFlatBeat l s).cycleFrame = s.cycleFrame := by
  simp only [mapFlatBeat]
  split <;> simp

theorem cycleFrame_mapFoldBeat (l : Half) (s : State) : (mapFoldBeat l s).cycleFrame = s.cycleFrame := by
  simp only [mapFoldBeat]
  split <;> simp

theorem cycleFrame_waitByte (b : Byte) (s : State) : (waitByte b s).cycleFrame = s.cycleFrame := by
  unfold waitByte
  split <;> rfl

theorem cycleFrame_carryCommand (code : Byte) (s : State) : (carryCommand code s).cycleFrame = s.cycleFrame := by
  unfold carryCommand
  split <;> rfl

theorem cycleFrame_of_storePayload {b : Byte} {n : RxState} {s t : State} (h : storePayload b n s = .next t) :
    t.cycleFrame = s.cycleFrame := by
  obtain ⟨-, rfl⟩ := storePayload_next h
  rfl

theorem cycleFrame_of_next {s t u : State} (h : (Host.Outcome.next u : Result) = .next t)
    (hu : u.cycleFrame = s.cycleFrame) : t.cycleFrame = s.cycleFrame := by
  rw [← Host.Outcome.next.inj h, hu]

/-- Every operation but the reset keeps the frame: the operations that branch by name, the others write named fields. -/
theorem cycleFrame_of_exec {i : Instr} {s t : State} (hi : i ≠ .reset) (h : exec i s = .next t) :
    t.cycleFrame = s.cycleFrame := by
  cases i with
  | reset => exact absurd rfl hi
  | rxPayload | rxPayloadLast => exact cycleFrame_of_storePayload h
  | rxState7 b => exact cycleFrame_of_next h (cycleFrame_waitByte b s)
  | rxTick => exact cycleFrame_of_next h (by split <;> simp)
  | pktAck => exact cycleFrame_of_next h (by split <;> simp)
  | txEmitCmd => exact cycleFrame_of_next h (by split <;> simp)
  | mapAccept strip l => exact cycleFrame_of_next h (cycleFrame_applyMapRow strip l _)
  | mapStripBcast l => exact cycleFrame_of_next h (cycleFrame_mapBroadcastBeat l s)
  | mapStrip strip l => exact cycleFrame_of_next h (cycleFrame_mapStripBeat strip l s)
  | mapFlat _ l => exact cycleFrame_of_next h (cycleFrame_mapFlatBeat l s)
  | mapFold _ l => exact cycleFrame_of_next h (cycleFrame_mapFoldBeat l s)
  | mapBeat => exact cycleFrame_of_next h (by split <;> simp)
  | cmdNop | cmdReset | cmdAck | cmdNak | cmdHello | cmdShow | cmdGetInfo | cmdGetPixels | cmdGetControl
  | cmdInfoResponse | cmdPixelResponse | cmdControlResponse | cmdPixelSetAll | cmdPixelSetRange | cmdPixelFrame
  | cmdSetControl | cmdStatusUpdate | cmdFrameAck | cmdInputEvent =>
    exact cycleFrame_of_next h (cycleFrame_carryCommand _ s)
  | _ => exact cycleFrame_of_next h rfl

theorem cycleFrame_of_runOps {is : List Instr} {s t : State} (hReset : Instr.reset ∉ is)
    (h : runOps is s = .next t) : t.cycleFrame = s.cycleFrame := by
  induction is generalizing s with
  | nil => exact cycleFrame_of_next h rfl
  | cons i is ih =>
    obtain ⟨hi, his⟩ := List.ne_and_not_mem_of_not_mem_cons hReset
    simp only [runOps] at h
    cases he : exec i s with
    | next u => rw [he] at h; exact (ih his h).trans (cycleFrame_of_exec (Ne.symm hi) he)
    | fault f => simp [he] at h
    | refused r => simp [he] at h

/-- The outputs that the reset lowers are low already in a cycle with `rst = 1` (R281). -/
theorem cycleFrame_resetBlock_beginCycle {s : State} {i : Inputs} (h : i.rst = true) :
    (resetBlock (beginCycle s i)).cycleFrame = (beginCycle s i).cycleFrame := by
  simp [State.cycleFrame, resetBlock, beginCycle, outputs, h]

/-- After a step the frame is as its cycle began: the cycle's outputs on the ports, its inputs consumed, its untaken
offers recorded. -/
theorem cycleFrame_of_step {s t : State} (h : step s = .next t) :
    t.cycleFrame = (beginCycle s (currentInputs s)).cycleFrame := by
  obtain ⟨-, hRun⟩ := step_next_cases h
  cases hr : (currentInputs s).rst with
  | false => exact cycleFrame_of_runOps (reset_notMem_selectedOps s hr) hRun
  | true =>
    rw [selectedOps_of_rst s hr, runOps_cons_next _ _ _ _ (exec_scale_beginCycle _ _), runOps_singleton] at hRun
    exact cycleFrame_of_next hRun (cycleFrame_resetBlock_beginCycle hr)

theorem step_held {s t : State} (h : step s = .next t) : t.held = heldAfter s (currentInputs s) :=
  congrArg CycleFrame.held (cycleFrame_of_step h)

/-- The four `*_ready` outputs recorded after a step are those of its cycle. -/
theorem step_ready_outputs {s t : State} (h : step s = .next t) :
    t.out.rxReady = (outputs s (currentInputs s)).rxReady ∧
      t.out.txReqReady = (outputs s (currentInputs s)).txReqReady ∧
      t.out.txPlReady = (outputs s (currentInputs s)).txPlReady ∧
      t.out.mapReqReady = (outputs s (currentInputs s)).mapReqReady := by
  have hPorts := congrArg CycleFrame.ports (cycleFrame_of_step h)
  exact ⟨(congrArg Outputs.rxReady hPorts :), (congrArg Outputs.txReqReady hPorts :),
    (congrArg Outputs.txPlReady hPorts :), (congrArg Outputs.mapReqReady hPorts :)⟩

/-! ## The duties of the environment (R11) -/

theorem offerLeft_eq {α : Type} (valid ready : Bool) (now : α) :
    offerLeft valid ready now = if valid = true ∧ ready = false then some now else none := by
  simp [offerLeft]

theorem keepsOffer_some_iff {α : Type} [DecidableEq α] (x : α) (valid : Bool) (now : α) :
    keepsOffer (some x) valid now = true ↔ valid = true ∧ now = x := by
  simp [keepsOffer]

theorem step_offerWithdrawn {s : State} (h : ¬ offersKept s (currentInputs s) = true) :
    step s = .refused .offerWithdrawn :=
  cycle_refused (by simp [dutyBroken, h])

theorem step_payloadNotOwed {s : State} (hKept : offersKept s (currentInputs s) = true)
    (hValid : (currentInputs s).txPlValid = true) (hOwed : ¬ payloadOwed s (currentInputs s) = true) :
    step s = .refused .payloadNotOwed :=
  cycle_refused (by simp [dutyBroken, hKept, hValid, hOwed])

/-- With the encoder idle, a new payload byte is owed only beside a request, accepted in this cycle, that has a
payload. -/
theorem payloadOwed_idle_new {s : State} {i : Inputs} (hState : s.tx.state = .idle) (hNone : s.held.txPl = none) :
    payloadOwed s i = true ↔
      i.rst = false ∧ i.txReqValid = true ∧ i.txReqLen ≠ 0 ∧ i.txReqLen.toNat ≤ s.csr.maxPayload.toNat := by
  simp [payloadOwed, hState, hNone, exceedsMax, and_assoc]

/-- With the encoder idle, an outstanding payload byte goes on, unless a request with a payload comes (R291). -/
theorem payloadOwed_idle_outstanding {s : State} {i : Inputs} (hState : s.tx.state = .idle)
    (hSome : s.held.txPl ≠ none) :
    payloadOwed s i = true ↔ (i.rst = false → i.txReqValid = true → i.txReqLen = 0) := by
  have hIsSome : s.held.txPl.isSome = true := Option.isSome_iff_ne_none.mpr hSome
  cases hr : i.rst <;> cases hv : i.txReqValid <;> simp [payloadOwed, hState, hIsSome, hr, hv]

/-- While a header byte or the checksum is sent, a new payload byte is owed only to a header whose packet has a
payload. -/
theorem payloadOwed_sending_new {s : State} {i : Inputs} (hIdle : s.tx.state ≠ .idle)
    (hPayload : s.tx.state ≠ .payload) (hNone : s.held.txPl = none) :
    payloadOwed s i = true ↔ s.tx.state ≠ .chk ∧ s.tx.len ≠ 0 := by
  cases hs : s.tx.state with
  | idle => exact absurd hs hIdle
  | payload => exact absurd hs hPayload
  | start | flags | lenLo | lenHi | cmd | chk => simp [payloadOwed, hs, hNone]

/-- Which offers are outstanding after a step: those whose `*_ready` was 0 in its cycle. -/
theorem step_records_offers {s t : State} {i : Inputs} (hi : currentInputs s = i) (h : step s = .next t) :
    t.held =
      { rx := if i.rxValid = true ∧ t.out.rxReady = false then some i.rxData else none
        txReq := if i.txReqValid = true ∧ t.out.txReqReady = false then
          some (i.txReqFlags, i.txReqCmd, i.txReqLen) else none
        txPl := if i.txPlValid = true ∧ t.out.txPlReady = false then some i.txPlData else none
        mapReq := if i.mapReqValid = true ∧ t.out.mapReqReady = false then
          some (i.mapReqStrip, i.mapReqIndex) else none } := by
  subst hi
  obtain ⟨hRx, hTxReq, hTxPl, hMapReq⟩ := step_ready_outputs h
  rw [step_held h, hRx, hTxReq, hTxPl, hMapReq]
  simp only [heldAfter, offerLeft_eq]

/-- The offers of the four channels, each kept. -/
def ChannelsKept (s : State) (i : Inputs) : Prop :=
  keepsOffer s.held.rx i.rxValid i.rxData = true ∧
    keepsOffer s.held.txReq i.txReqValid (i.txReqFlags, i.txReqCmd, i.txReqLen) = true ∧
    keepsOffer s.held.txPl i.txPlValid i.txPlData = true ∧
    keepsOffer s.held.mapReq i.mapReqValid (i.mapReqStrip, i.mapReqIndex) = true

/-- An outstanding offer of one channel that its source drops or changes is refused. -/
theorem step_refuses_withdrawn_offer {α : Type} [DecidableEq α] {s : State} {i : Inputs} {held : Option α}
    {x now : α} {valid : Bool} (hi : currentInputs s = i) (hHeld : held = some x) (h : valid = false ∨ now ≠ x)
    (hChannel : ChannelsKept s i → keepsOffer held valid now = true) : step s = .refused .offerWithdrawn := by
  subst hi hHeld
  refine step_offerWithdrawn fun hKept => ?_
  obtain ⟨hValid, hNow⟩ := (keepsOffer_some_iff _ _ _).mp (hChannel ((offersKept_iff _ _).mp hKept))
  rcases h with h | h
  · simp [hValid] at h
  · exact h hNow

/-- A payload byte raised with no packet that owes it is refused. -/
theorem step_refuses_new_payload {s : State} {i : Inputs} (hi : currentInputs s = i) (hKept : offersKept s i = true)
    (hValid : i.txPlValid = true) (hNone : s.held.txPl = none)
    (h : (s.tx.state = .idle ∧
        (i.rst = true ∨ i.txReqValid = false ∨ i.txReqLen = 0 ∨ s.csr.maxPayload.toNat < i.txReqLen.toNat)) ∨
      s.tx.state = .chk ∨ (s.tx.state ≠ .idle ∧ s.tx.state ≠ .payload ∧ s.tx.len = 0)) :
    step s = .refused .payloadNotOwed := by
  subst hi
  refine step_payloadNotOwed hKept hValid fun hOwed => ?_
  rcases h with ⟨hIdle, hReq⟩ | hChk | ⟨hIdle, hPayload, hLen⟩
  · obtain ⟨hRst, hReqValid, hLen, hMax⟩ := (payloadOwed_idle_new hIdle hNone).mp hOwed
    rcases hReq with h | h | h | h
    · simp [hRst] at h
    · simp [hReqValid] at h
    · exact hLen h
    · omega
  · exact ((payloadOwed_sending_new (by simp [hChk]) (by simp [hChk]) hNone).mp hOwed).1 hChk
  · exact ((payloadOwed_sending_new hIdle hPayload hNone).mp hOwed).2 hLen

/-- Settles O8: the record of offers is the cycle's (`step_records_offers`); a dropped or changed offer fails
`offersKept`, and a payload byte that is not owed fails `payloadOwed`, which `dutyBroken` checks in that order. -/
theorem withdrawnByteIsRefused : Obligations.WithdrawnByteIsRefused := by
  intro s i hi
  refine ⟨fun t h => ?_, fun b hHeld h => ?_, fun f c n hHeld h => ?_, fun p hHeld h => ?_, fun strip l hHeld h => ?_,
    fun hKept hValid => ⟨step_refuses_new_payload hi hKept hValid, fun hSome hIdle hRst hReq hLen => ?_⟩⟩
  · simp only [step_records_offers hi h, and_self]
  · exact step_refuses_withdrawn_offer hi hHeld h fun ⟨hRx, _, _, _⟩ => hRx
  · exact step_refuses_withdrawn_offer hi hHeld (by simpa only [ne_eq, Prod.mk.injEq, not_and_or] using h)
      fun ⟨_, hTxReq, _, _⟩ => hTxReq
  · exact step_refuses_withdrawn_offer hi hHeld h fun ⟨_, _, hTxPl, _⟩ => hTxPl
  · exact step_refuses_withdrawn_offer hi hHeld (by simpa only [ne_eq, Prod.mk.injEq, not_and_or] using h)
      fun ⟨_, _, _, hMapReq⟩ => hMapReq
  · subst hi
    exact step_payloadNotOwed hKept hValid fun hOwed =>
      hLen ((payloadOwed_idle_outstanding hIdle hSome).mp hOwed hRst hReq)

end Sys2Proof.Machine
end

section
/-! PROOFS of the statements about the state as a whole: a cycle's operations, run one after another, give what each
register's own rule computes from the pre-state (R21, R80); what that says of `RXBUF` and of a pending packet; the state
after reset (R65); and which operation writes which element (R23). -/

namespace Sys2Proof.Machine

/-! ## The register access of a cycle (R221) -/

theorem driveReadData_same {v : Half} {u : State} (h : u.out.csrRdata = v) : driveReadData v u = u := by
  subst h
  rfl

theorem readRegister_beginCycle (s : State) (i : Inputs) (a : BitVec 4) :
    readRegister (beginCycle s i) a = readRegister s a := rfl

/-- A read drives the register's word (R222 to R248). -/
theorem exec_csrRead (u : State) (a : BitVec 4) (d : Half) :
    exec (decodeCsr a.toNat d) u = .next (driveReadData (readRegister u a) u) := by
  obtain ⟨n, hn⟩ := a
  interval_cases n <;> rfl

/-- A write to any address but that of `EVENT` gives each register what its own rule computes (R223 to R249). -/
theorem exec_csrWrite {u : State} {i : Inputs} (hValid : i.csrValid = true) (hWe : i.csrWe = true)
    (hAddr : i.csrAddr ≠ 3) :
    exec (decodeCsr (16 + i.csrAddr.toNat) i.csrWdata) u = .next (writeConfig (csrAfter u i) u) := by
  generalize h : i.csrAddr = a at hAddr
  obtain ⟨n, hn⟩ := a
  interval_cases n <;> simp [csrAfter, writesTo, hValid, hWe, h] at hAddr ⊢ <;> rfl

theorem writesConfig_iff (i : Inputs) :
    writesConfig i = true ↔ i.csrValid = true ∧ i.csrWe = true ∧ i.csrAddr ≠ 3 := by
  unfold writesConfig
  simp only [Bool.and_eq_true, decide_eq_true_eq, and_assoc]

/-- The write of `EVENT` clears its bits (R229); no other access clears any. -/
theorem eventClear_eq (i : Inputs) :
    eventClear i = if i.csrValid = true ∧ i.csrWe = true ∧ i.csrAddr = 3 then i.csrWdata.setWidth 5 else 0 := by
  simp only [eventClear, Bool.and_eq_true, decide_eq_true_eq, and_assoc]

theorem csrAfter_of_no_write {s : State} {i : Inputs} (h : ¬ writesConfig i = true) : csrAfter s i = s.csr := by
  have hNo : ∀ a : BitVec 4, a ≠ 3 → writesTo i a = false := by
    intro a ha
    rw [writesConfig_iff] at h
    simp only [writesTo, Bool.and_eq_false_iff]
    grind
  simp [csrAfter, hNo]

theorem beginCycle_clear_none {s : State} {i : Inputs}
    (h : ¬ (i.csrValid = true ∧ i.csrWe = true ∧ i.csrAddr = 3)) :
    (beginCycle s i).setEvent (mergeEvent s.event (eventClear i) 0) = beginCycle s i := by
  rw [eventClear_eq, if_neg h, mergeEvent_none]
  rfl

/-- The access run before the units clears the written bits of `EVENT`; the outputs stand as the cycle began. -/
theorem runOps_csrEarlyOps {s : State} {i : Inputs} (hRst : i.rst = false) :
    runOps (csrEarlyOps i) (beginCycle s i) =
      .next ((beginCycle s i).setEvent (mergeEvent s.event (eventClear i) 0)) := by
  unfold csrEarlyOps
  split
  case isTrue hWrites =>
    obtain ⟨-, -, hAddr⟩ := (writesConfig_iff i).mp hWrites
    rw [beginCycle_clear_none fun ⟨_, _, hEvent⟩ => hAddr hEvent]
    rfl
  case isFalse hWrites =>
    rw [runOps_singleton]
    cases hValid : i.csrValid with
    | false =>
      rw [beginCycle_clear_none (by simp [hValid]), csrOps, hValid]
      exact exec_csrIdle_beginCycle (csrRdata_of_no_read (by simp [hValid]))
    | true =>
      cases hWe : i.csrWe with
      | false =>
        have hDriven : (beginCycle s i).out.csrRdata = readRegister (beginCycle s i) i.csrAddr := by
          rw [readRegister_beginCycle]
          simp [beginCycle, outputs, hRst, hValid, hWe]
        rw [beginCycle_clear_none (by simp [hWe])]
        simp [csrOps, hValid, hWe, exec_csrRead, driveReadData_same hDriven]
      | true =>
        have hAddr : i.csrAddr = 3 := by
          by_contra h
          exact hWrites ((writesConfig_iff i).mpr ⟨hValid, hWe, h⟩)
        have hDriven : (outputs s i).csrRdata = 0 := csrRdata_of_no_read (by simp [hWe])
        rw [eventClear_eq, if_pos ⟨hValid, hWe, hAddr⟩]
        simp only [csrOps, hValid, hWe, hAddr]
        change Host.Outcome.next (driveReadData 0 _) = _
        rw [driveReadData_same]
        · rfl
        · exact hDriven

theorem runOps_csrLateOps {s u : State} {i : Inputs} (hCsr : u.csr = s.csr) (hCfg : u.cfg = s.cfg)
    (hOut : u.out = outputs s i) : runOps (csrLateOps i) u = .next (u.setCsr (csrAfter s i)) := by
  unfold csrLateOps
  split
  case isTrue hWrites =>
    obtain ⟨hValid, hWe, hAddr⟩ := (writesConfig_iff i).mp hWrites
    have hSame : csrAfter u i = csrAfter s i := by simp [csrAfter, hCsr, hCfg]
    rw [runOps_singleton]
    simp only [csrOps, hValid, hWe, if_true, exec_csrWrite hValid hWe hAddr, hSame, writeConfig]
    rw [driveReadData_same]
    rw [State.setCsr_out, hOut]
    exact csrRdata_of_no_read (by simp [hWe])
  case isFalse hWrites =>
    rw [csrAfter_of_no_write hWrites, ← hCsr]
    rfl

/-! ## The payload read and the acknowledge (R112, R129, R130) -/

theorem runOps_plRdOps (i : Inputs) (u : State) :
    runOps (plRdOps i) u =
      .next (u.setRx { u.rx with plRdQ := if i.plRdEn then readRxbuf u i.plRdAddr.toNat else u.rx.plRdQ }) := by
  unfold plRdOps
  split <;> rfl

theorem runOps_ackOps {s u : State} (i : Inputs) (h : u.rx.pending = s.rx.pending) :
    runOps (ackOps s i) u = .next (u.setRx { u.rx with pending := s.rx.pending && !i.pktAck }) := by
  have hSame : u.setRx { u.rx with pending := s.rx.pending } = u := by rw [← h]; rfl
  unfold ackOps
  cases hPending : s.rx.pending with
  | false => simp only [hPending] at hSame; simp [runOps, hSame]
  | true =>
    cases i.pktAck with
    | false => simp only [hPending] at hSame; simp [runOps, hSame]
    | true => simp [runOps_singleton, exec, execPktAck, h, hPending]

/-! ## The bits of `EVENT` a unit raises -/

@[simp] theorem bitIf_true (b : BitVec 5) : bitIf true b = b := rfl
@[simp] theorem bitIf_false (b : BitVec 5) : bitIf false b = 0#5 := rfl

@[simp] theorem raiseEvent_none (u : State) : raiseEvent 0#5 u = u := by
  rw [raiseEvent_eq, BitVec.or_zero]
  rfl

/-! ## The mapper (R193 to R203) -/

/-- The latches of the geometry and the first beat of the request (R194). -/
theorem exec_mapAccept {s u : State} (i : Inputs) (hMap : u.map = s.map) (hCsr : u.csr = s.csr) :
    exec (.mapAccept i.mapReqStrip i.mapReqIndex) u =
      .next (raiseEvent (bitIf (decide ((requestedBeat s i).err ≠ Config.errOk)) eventMapErr)
        (u.setMap (MapUnit.load { s.map with w := s.csr.physWidth, n := s.csr.stripCount } (requestedBeat s i)))) := by
  have hLatched : latchGeometry u = u.setMap { s.map with w := s.csr.physWidth, n := s.csr.stripCount } := by
    rw [latchGeometry, hMap, hCsr]
  have hBeat : mapBeatOf (latchGeometry u).csr.mode (widthOf (latchGeometry u)) (stripsOf (latchGeometry u))
      i.mapReqStrip i.mapReqIndex.toNat = requestedBeat s i := by
    simp only [requestedBeat, widthOf, stripsOf, hLatched, State.setMap_csr, hCsr]
  change Host.Outcome.next (applyMapRow _ _ (latchGeometry u)) = _
  rw [applyMapRow_eq, hBeat, hLatched, raiseEvent_eq]
  rfl

theorem exec_mapBeat {s u : State} (hMap : u.map = s.map) :
    exec .mapBeat u = .next (u.setMap
      (if s.map.last then { s.map with valid := false } else s.map.load (continuationBeat s.map))) := by
  simp only [exec, execMapBeat, nextBroadcastBeat_eq, hMap]
  split <;> rfl

theorem runOps_mapOps {s u : State} (i : Inputs) (hMap : u.map = s.map) (hCsr : u.csr = s.csr) :
    runOps (mapOps s i) u =
      .next (raiseEvent (bitIf (mapFails s i) eventMapErr) (u.setMap (mapAfter s i))) := by
  unfold mapOps mapAfter mapFails
  cases hReq : fireMapReq s i with
  | true => simp only [if_true, runOps_singleton, exec_mapAccept i hMap hCsr, Bool.true_and]
  | false =>
    simp only [Bool.false_eq_true, if_false, Bool.false_and, bitIf_false, raiseEvent_none]
    split
    · rw [runOps_singleton, exec_mapBeat hMap]
    · rw [← hMap]
      rfl

/-! ## The encoder (R141 to R152) -/

/-- The outputs of a cycle in which a byte is taken show that byte (R57, R144). -/
theorem outputs_of_fireTx {s : State} {i : Inputs} (hRst : i.rst = false) (h : fireTx s i = true) :
    outputs s i = { outputs s i with txValid := true, txData := txByteOffered s i } := by
  obtain ⟨hOffers, -⟩ := (Bool.and_eq_true _ _).mp h
  have hValid : (outputs s i).txValid = true := by simp [outputs, hRst, hOffers]
  rw [← hValid]
  rfl

theorem sendByte_offered {s u : State} {i : Inputs} (hRst : i.rst = false) (h : fireTx s i = true)
    (hOut : u.out = outputs s i) : sendByte (txByteOffered s i) u = u := by
  have hSame : { u.out with txValid := true, txData := txByteOffered s i } = u.out := by
    rw [hOut, ← outputs_of_fireTx hRst h]
  rw [sendByte_eq, hSame]
  rfl

/-- A byte taken by the sink: it stands on the ports already, and the encoder's registers follow their rules. -/
theorem exec_txByteOp {s u : State} {i : Inputs} (hRst : i.rst = false) (hFire : fireTx s i = true)
    (hNoReq : acceptsRequest s i = false) (hTx : u.tx = s.tx) (hOut : u.out = outputs s i) :
    exec (txByteOp s.tx.state i.txPlData) u = .next (u.setTx (txAfter s i)) := by
  have hSent := sendByte_offered hRst hFire hOut
  cases hState : s.tx.state with
  | idle => exact absurd hState (fireTx_notIdle hFire)
  | cmd =>
    simp only [txByteOffered, hState] at hSent
    by_cases hLen : s.tx.len = 0#16 <;>
      simp [txByteOp, exec, execTxEmitCmd, sendHeader, hTx, hSent, hState, hLen, txStateAfterByte, txEntersXor,
        txByteOffered, txAfter, hNoReq, hFire]
  | start | flags | lenLo | lenHi | payload | chk =>
    simp only [txByteOffered, hState] at hSent
    simp [txByteOp, exec, execTxEmitStart, execTxEmitFlags, execTxEmitLenLo, execTxEmitLenHi, execTxEmitPayload,
      execTxEmitChk, sendHeader, hTx, hSent, hState, txStateAfterByte, txEntersXor, txByteOffered, txAfter,
      hNoReq, hFire]

theorem fireTxReq_not_fireTx {s : State} {i : Inputs} (h : fireTxReq s i = true) : fireTx s i = false := by
  cases hFire : fireTx s i with
  | false => rfl
  | true => simp [fireTxReq, txIsIdle, fireTx_notIdle hFire] at h

theorem runOps_txOps {s u : State} {i : Inputs} (hRst : i.rst = false) (hTx : u.tx = s.tx) (hCsr : u.csr = s.csr)
    (hOut : u.out = outputs s i) :
    runOps (txOps s i) u =
      .next (raiseEvent (bitIf (refusesRequest s i) eventTxErr) (u.setTx (txAfter s i))) := by
  unfold txOps
  have hKept : u.setTx s.tx = u := by rw [← hTx]; rfl
  cases hReq : fireTxReq s i with
  | true =>
    cases hMax : exceedsMax s i.txReqLen with
    | true =>
      simp [runOps_singleton, refusesRequest, txAfter, acceptsRequest, hReq, hMax, fireTxReq_not_fireTx hReq, hKept,
        exec, execTxReqRefuse, raiseTxErr]
    | false =>
      simp [runOps_singleton, refusesRequest, txAfter, acceptsRequest, hReq, hMax, exec, execTxReq, sentFlags, hCsr]
  | false =>
    have hNoReq : acceptsRequest s i = false := by simp [acceptsRequest, hReq]
    cases hFire : fireTx s i with
    | true => simp [runOps_singleton, refusesRequest, hReq, exec_txByteOp hRst hFire hNoReq hTx hOut]
    | false => simp [runOps, refusesRequest, txAfter, hReq, hFire, hNoReq, hKept]

/-! ## The framer (R112 to R127) -/

/-- The framer after the payload read and the acknowledge of a cycle, as its byte or tick finds it. -/
def rxReadAcked (s : State) (i : Inputs) : RxUnit :=
  { s.rx with
    plRdQ := if i.plRdEn then readRxbuf s i.plRdAddr.toNat else s.rx.plRdQ
    pending := s.rx.pending && !i.pktAck }

/-- The bits of `EVENT` the framer raises (R264). -/
def rxEvents (s : State) (i : Inputs) : BitVec 5 :=
  bitIf (checksumFails s i) eventChk ||| bitIf (oversize s i) eventOvs ||| bitIf (timesOut s i) eventTmo

theorem fireRx_iff (s : State) (i : Inputs) : fireRx s i = true ↔ i.rxValid = true ∧ s.rx.pending = false := by
  simp [fireRx]

theorem takesPayload_iff (s : State) (i : Inputs) :
    takesPayload s i = true ↔ fireRx s i = true ∧ s.rx.state = .readPayload := by
  simp [takesPayload]

theorem pending_of_fireRx {s : State} {i : Inputs} (h : fireRx s i = true) : s.rx.pending = false :=
  ((fireRx_iff s i).mp h).2

@[simp] theorem setRx_setRx (s : State) (r r' : RxUnit) : (s.setRx r).setRx r' = s.setRx r' := rfl

/-- The framer after an accepted byte, the cycle's conditions read off its state (R112). -/
theorem rxAfter_of_byte {s : State} {i : Inputs} (hFire : fireRx s i = true) :
    rxAfter s i =
      { rxReadAcked s i with
        state := rxStateAfterByte s i.rxData
        acc :=
          if timeoutRuns s.rx.state = false ∧ i.rxData = Config.startByte then 0
          else if entersXor s i.rxData then s.rx.acc ^^^ i.rxData
          else s.rx.acc
        flags := if s.rx.state = .readFlags then i.rxData else s.rx.flags
        len :=
          if s.rx.state = .readLengthLow then zext16 i.rxData
          else if s.rx.state = .readLengthHigh then declaredLength s i.rxData
          else s.rx.len
        cmd := if s.rx.state = .readCommand then i.rxData else s.rx.cmd
        chk := if s.rx.state = .readChecksum ∧ i.rxData = s.rx.acc then i.rxData else s.rx.chk
        idx :=
          if s.rx.state = .readCommand ∧ s.rx.len ≠ 0 then 0
          else if s.rx.state = .readPayload then s.rx.idx + 1
          else s.rx.idx
        idle := 0
        pending := decide (s.rx.state = .readChecksum ∧ i.rxData = s.rx.acc)
        buf := if s.rx.state = .readPayload then Memory.write s.rx.buf s.rx.idx.toNat i.rxData else s.rx.buf
        chkErr := if s.rx.state = .readChecksum ∧ i.rxData ≠ s.rx.acc then s.rx.chkErr + 1 else s.rx.chkErr
        lastDrop :=
          if s.rx.state = .readChecksum ∧ i.rxData ≠ s.rx.acc then Config.errChecksum
          else if s.rx.state = .readLengthHigh ∧ exceedsMax s (declaredLength s i.rxData) = true then
            Config.errBufferOverflow
          else s.rx.lastDrop } := by
  simp [rxAfter, rxReadAcked, checksumFails, oversize, timesOut, checksumHolds, takesPayload, opensPacket, hFire,
    pending_of_fireRx hFire]

theorem rxEvents_of_byte {s : State} {i : Inputs} (hFire : fireRx s i = true) :
    rxEvents s i =
      bitIf (decide (s.rx.state = .readChecksum ∧ i.rxData ≠ s.rx.acc)) eventChk |||
        bitIf (decide (s.rx.state = .readLengthHigh ∧ exceedsMax s (declaredLength s i.rxData) = true)) eventOvs := by
  simp [rxEvents, checksumFails, oversize, timesOut, hFire]

/-- A byte taken by the framer: the row that its state and its condition pick does what the registers' rules say (R115
to R127). -/
theorem exec_rxByte {s u : State} {i : Inputs} (hFire : fireRx s i = true) (hRx : u.rx = rxReadAcked s i)
    (hCfg : u.cfg = s.cfg) (hIdx : takesPayload s i = true → s.rx.idx.toNat < s.cfg.rxbufCap) :
    exec (decodeRxByte (rxStateBits s.rx.state).toNat i.rxData (rxCondition s i.rxData)) u =
      .next (raiseEvent (rxEvents s i) (u.setRx (rxAfter s i))) := by
  have hPending := pending_of_fireRx hFire
  have hLen : declaredLength u i.rxData = declaredLength s i.rxData := by simp [declaredLength, hRx, rxReadAcked]
  rw [rxAfter_of_byte hFire, rxEvents_of_byte hFire]
  cases hState : s.rx.state with
  | waitStart =>
    change exec (if i.rxData = Config.startByte then .rxWsStart else .rxWsSkip i.rxData) u = _
    by_cases hStart : i.rxData = Config.startByte <;>
      simp [exec, execRxWsStart, execRxWsSkip, startPacket, acceptByte, hRx, rxReadAcked, hState, hStart,
        rxStateAfterByte, entersXor, timeoutRuns, hPending]
  | unused7 =>
    change exec (.rxState7 i.rxData) u = _
    by_cases hStart : i.rxData = Config.startByte <;>
      simp [exec, execRxState7, waitByte, startPacket, acceptByte, hRx, rxReadAcked, hState, hStart,
        rxStateAfterByte, entersXor, timeoutRuns, hPending]
  | readFlags =>
    change exec (.rxFlags i.rxData) u = _
    simp [exec, execRxFlags, hRx, rxReadAcked, hState, rxStateAfterByte, entersXor, timeoutRuns, hPending]
  | readLengthLow =>
    change exec (.rxLenLo i.rxData) u = _
    simp [exec, execRxLenLo, hRx, rxReadAcked, hState, rxStateAfterByte, entersXor, timeoutRuns, hPending]
  | readLengthHigh =>
    rw [rxCondition, hState]
    change exec (if exceedsMax s (declaredLength s i.rxData) then .rxLenHiOversize i.rxData
      else .rxLenHi i.rxData) u = _
    cases hMax : exceedsMax s (declaredLength s i.rxData) <;>
      simp [exec, execRxLenHi, execRxLenHiOversize, raiseDrop, hLen, hRx, rxReadAcked, hState, hMax, rxStateAfterByte,
        entersXor, timeoutRuns, hPending]
  | readCommand =>
    rw [rxCondition, hState]
    change exec (if decide (s.rx.len = 0) then .rxCmdEmpty i.rxData else .rxCmd i.rxData) u = _
    by_cases hEmpty : s.rx.len = 0#16 <;>
      simp [exec, execRxCmdEmpty, execRxCmd, commandNoPayload, commandWithPayload, hRx, rxReadAcked, hState, hEmpty,
        rxStateAfterByte, entersXor, timeoutRuns, hPending]
  | readPayload =>
    have hStored : ∀ next,
        storePayload i.rxData next u = .next (u.setRx ((rxReadAcked s i).stored i.rxData next)) := by
      intro next
      rw [storePayload_inRange, hRx]
      rw [hRx, hCfg]
      exact hIdx (by simp [takesPayload, hFire, hState])
    rw [rxCondition, hState]
    change exec (if decide (s.rx.idx.toNat + 1 = s.rx.len.toNat) then .rxPayloadLast i.rxData
      else .rxPayload i.rxData) u = _
    by_cases hLast : s.rx.idx.toNat + 1 = s.rx.len.toNat <;>
      simp [exec, execRxPayload, execRxPayloadLast, hStored, RxUnit.stored, hRx, rxReadAcked, hState, hLast,
        rxStateAfterByte, entersXor, timeoutRuns, hPending]
  | readChecksum =>
    rw [rxCondition, hState]
    change exec (if decide (i.rxData = s.rx.acc) then .rxChkOk i.rxData else .rxChkBad i.rxData) u = _
    by_cases hHolds : i.rxData = s.rx.acc <;>
      simp [exec, execRxChkOk, execRxChkBad, raiseDrop, hRx, rxReadAcked, hState, hHolds, rxStateAfterByte, entersXor,
        timeoutRuns, hPending]

/-- A payload byte whose address does not exist faults (log 10). -/
theorem exec_rxByte_fault {s u : State} {i : Inputs} (hTakes : takesPayload s i = true)
    (hRx : u.rx = rxReadAcked s i) (hCfg : u.cfg = s.cfg) (hIdx : ¬ s.rx.idx.toNat < s.cfg.rxbufCap) :
    exec (decodeRxByte (rxStateBits s.rx.state).toNat i.rxData (rxCondition s i.rxData)) u =
      .fault .rxbufOutOfRange := by
  obtain ⟨-, hState⟩ := (takesPayload_iff s i).mp hTakes
  have hFaults : ∀ next, storePayload i.rxData next u = .fault .rxbufOutOfRange := by
    intro next
    apply storePayload_outOfRange
    rw [hRx, hCfg]
    exact hIdx
  rw [hState]
  change exec (if rxCondition s i.rxData then .rxPayloadLast i.rxData else .rxPayload i.rxData) u = _
  split
  · exact hFaults _
  · exact hFaults _

/-- Without a byte the framer counts a tick, if there is one, and a tick may discard the partial packet (R113). -/
theorem exec_rxTick {s u : State} {i : Inputs} (hFire : fireRx s i = false) (hTick : i.tick = true)
    (hRx : u.rx = rxReadAcked s i) (hCfg : u.cfg = s.cfg) :
    exec .rxTick u = .next (raiseEvent (rxEvents s i) (u.setRx (rxAfter s i))) := by
  have hExpires : tickExpires u = timesOut s i := by
    simp [tickExpires, timesOut, hFire, hTick, hRx, hCfg, rxReadAcked]
  simp only [exec, execRxTick, hExpires]
  cases hOut : timesOut s i <;>
    simp [raiseDrop, countTick, hRx, hCfg, rxReadAcked, rxAfter, rxEvents, hFire, hTick, hOut, checksumFails, oversize,
      checksumHolds, takesPayload, opensPacket]

theorem runOps_rxOps {s u : State} {i : Inputs} (hRx : u.rx = rxReadAcked s i) (hCfg : u.cfg = s.cfg)
    (hIdx : takesPayload s i = true → s.rx.idx.toNat < s.cfg.rxbufCap) :
    runOps (rxOps s i) u = .next (raiseEvent (rxEvents s i) (u.setRx (rxAfter s i))) := by
  unfold rxOps
  cases hFire : fireRx s i with
  | true => simp only [if_true, runOps_singleton, exec_rxByte hFire hRx hCfg hIdx]
  | false =>
    cases hTick : i.tick with
    | true =>
      simp only [Bool.false_eq_true, if_false, if_true, runOps_singleton, exec_rxTick hFire hTick hRx hCfg]
    | false =>
      have hKept : u.setRx (rxReadAcked s i) = u := by rw [← hRx]; rfl
      have hAfter : rxAfter s i = rxReadAcked s i := by
        simp [rxAfter, rxReadAcked, hFire, hTick, timesOut, checksumFails, oversize, checksumHolds, takesPayload,
          opensPacket]
      simp [runOps, hAfter, hKept, rxEvents, hFire, hTick, timesOut, checksumFails, oversize]

/-! ## The cycle -/

theorem runOps_append_of_fault (xs ys : List Instr) (s : State) {f : Fault} (h : runOps xs s = .fault f) :
    runOps (xs ++ ys) s = .fault f := by
  induction xs generalizing s with
  | nil => cases h
  | cons i xs ih =>
    simp only [runOps, List.cons_append] at h ⊢
    cases he : exec i s with
    | next u => rw [he] at h; exact ih u h
    | fault g => simp [he] at h ⊢
    | refused r => simp [he] at h

/-- The state of a cycle when the framer's byte or tick comes: the written bits of `EVENT` cleared, the payload read and
the acknowledge done. -/
def beforeByte (s : State) (i : Inputs) : State :=
  ((beginCycle s i).setEvent (mergeEvent s.event (eventClear i) 0)).setRx (rxReadAcked s i)

/-- The operations of a cycle without reset that come after the framer's byte or tick. -/
def opsAfterByte (s : State) (i : Inputs) : List Instr := txOps s i ++ (mapOps s i ++ csrLateOps i)

theorem runOps_selectedOps_eq {s : State} {i : Inputs} (hRst : i.rst = false) :
    runOps (selectedOps s i) (beginCycle s i) = runOps (rxOps s i ++ opsAfterByte s i) (beforeByte s i) := by
  have hRead := runOps_plRdOps i ((beginCycle s i).setEvent (mergeEvent s.event (eventClear i) 0))
  have hAck := runOps_ackOps (s := s) (u := (beginCycle s i).setEvent (mergeEvent s.event (eventClear i) 0) |>.setRx
    { s.rx with plRdQ := if i.plRdEn then readRxbuf s i.plRdAddr.toNat else s.rx.plRdQ }) i rfl
  rw [selectedOps, hRst, if_neg (by simp), List.singleton_append,
    runOps_cons_next _ _ _ _ (exec_scale_beginCycle s i), runOps_append _ _ _ _ (runOps_csrEarlyOps hRst),
    runOps_append _ _ _ _ hRead]
  exact runOps_append _ _ _ _ hAck

/-- The units after the byte or tick, then the register write: each reads its own registers of the pre-state. -/
theorem runOps_opsAfterByte {s u : State} {i : Inputs} (hRst : i.rst = false) (hCfg : u.cfg = s.cfg) (hTx : u.tx = s.tx)
    (hMap : u.map = s.map) (hCsr : u.csr = s.csr) (hOut : u.out = outputs s i) :
    runOps (opsAfterByte s i) u =
      .next ((((u.setTx (txAfter s i)).setMap (mapAfter s i)).setCsr (csrAfter s i)).setEvent
        (u.event ||| bitIf (refusesRequest s i) eventTxErr ||| bitIf (mapFails s i) eventMapErr)) := by
  have hTxRun := runOps_txOps hRst hTx hCsr hOut
  have hMapRun := runOps_mapOps (s := s)
    (u := raiseEvent (bitIf (refusesRequest s i) eventTxErr) (u.setTx (txAfter s i))) i hMap hCsr
  have hLateRun := runOps_csrLateOps (s := s) (i := i) (u := raiseEvent (bitIf (mapFails s i) eventMapErr)
    ((raiseEvent (bitIf (refusesRequest s i) eventTxErr) (u.setTx (txAfter s i))).setMap (mapAfter s i))) hCsr hCfg hOut
  rw [opsAfterByte, runOps_append _ _ _ _ hTxRun, runOps_append _ _ _ _ hMapRun, hLateRun]
  simp only [raiseEvent_eq]
  rfl

/-- The bits the units raise one after another merge with the cleared `EVENT` as R265 merges them at once. -/
theorem mergeEvent_units (s : State) (i : Inputs) :
    mergeEvent s.event (eventClear i) 0 ||| rxEvents s i ||| bitIf (refusesRequest s i) eventTxErr |||
      bitIf (mapFails s i) eventMapErr = mergeEvent s.event (eventClear i) (eventSet s i) := by
  simp [mergeEvent_or, eventSet, rxEvents]

theorem runOps_selectedOps {s : State} {i : Inputs} (hRst : i.rst = false)
    (hIdx : takesPayload s i = true → s.rx.idx.toNat < s.cfg.rxbufCap) :
    runOps (selectedOps s i) (beginCycle s i) = .next (ordinaryAfter s i) := by
  have hRx : runOps (rxOps s i) (beforeByte s i) = _ := runOps_rxOps rfl rfl hIdx
  have hAfter := runOps_opsAfterByte (s := s) (u := raiseEvent (rxEvents s i) ((beforeByte s i).setRx (rxAfter s i)))
    hRst rfl rfl rfl rfl rfl
  rw [runOps_selectedOps_eq hRst, runOps_append _ _ _ _ hRx, hAfter, ordinaryAfter, ← mergeEvent_units, raiseEvent_eq]
  rfl

theorem runOps_selectedOps_fault {s : State} {i : Inputs} (hRst : i.rst = false) (hTakes : takesPayload s i = true)
    (hIdx : ¬ s.rx.idx.toNat < s.cfg.rxbufCap) :
    runOps (selectedOps s i) (beginCycle s i) = .fault .rxbufOutOfRange := by
  obtain ⟨hFire, -⟩ := (takesPayload_iff s i).mp hTakes
  rw [runOps_selectedOps_eq hRst]
  apply runOps_append_of_fault
  rw [rxOps, if_pos hFire, runOps_singleton]
  exact exec_rxByte_fault hTakes rfl rfl hIdx

theorem runOps_selectedOps_rst {s : State} {i : Inputs} (hRst : i.rst = true) :
    runOps (selectedOps s i) (beginCycle s i) = .next (resetAfter s i) := by
  rw [selectedOps_of_rst s hRst, runOps_cons_next _ _ _ _ (exec_scale_beginCycle _ _), runOps_singleton]
  simp [exec, execReset, resetBlock, resetAfter, beginCycle, outputs, hRst]

/-- A step that answers a next state is the lockstep cycle, and a payload byte it takes has an address. -/
theorem step_next_lockstep {s t : State} (h : step s = .next t) :
    t = lockstep s (currentInputs s) ∧
      ((currentInputs s).rst = false → takesPayload s (currentInputs s) = true → s.rx.idx.toNat < s.cfg.rxbufCap) := by
  obtain ⟨-, hRun⟩ := step_next_cases h
  unfold lockstep
  cases hRst : (currentInputs s).rst with
  | true =>
    rw [runOps_selectedOps_rst hRst] at hRun
    exact ⟨(Host.Outcome.next.inj hRun).symm, nofun⟩
  | false =>
    by_cases hIdx : takesPayload s (currentInputs s) = true → s.rx.idx.toNat < s.cfg.rxbufCap
    · rw [runOps_selectedOps hRst hIdx] at hRun
      exact ⟨(Host.Outcome.next.inj hRun).symm, fun _ => hIdx⟩
    · obtain ⟨hTakes, hOut⟩ := Classical.not_imp.mp hIdx
      rw [runOps_selectedOps_fault hRst hTakes hOut] at hRun
      cases hRun

/-- Settles O7: the operations of a cycle give the lockstep state, because each unit's operation reads registers that no
operation before it writes (`runOps_selectedOps`). -/
theorem stepIsTheLockstepCycle : Obligations.StepIsTheLockstepCycle := by
  intro s hDuty hIdx
  rw [show step s = _ from cycle_eq_runOps s (currentInputs s) hDuty, lockstep]
  cases hRst : (currentInputs s).rst with
  | true => exact runOps_selectedOps_rst hRst
  | false => exact runOps_selectedOps hRst (hIdx hRst)

/-! ## What a cycle does to `RXBUF` and to a pending packet (R26, R30, R81) -/

theorem lockstep_of_rst {s : State} {i : Inputs} (h : i.rst = true) : lockstep s i = resetAfter s i := by
  rw [lockstep, if_pos h]

theorem lockstep_of_not_rst {s : State} {i : Inputs} (h : i.rst = false) : lockstep s i = ordinaryAfter s i := by
  rw [lockstep, h]
  rfl

theorem rxAfter_buf_of_payload {s : State} {i : Inputs} (h : takesPayload s i = true) :
    (rxAfter s i).buf = Memory.write s.rx.buf s.rx.idx.toNat i.rxData := by
  simp [rxAfter, h]

theorem rxAfter_buf_of_no_payload {s : State} {i : Inputs} (h : takesPayload s i = false) :
    (rxAfter s i).buf = s.rx.buf := by
  simp [rxAfter, h]

/-- Settles O14: in the lockstep cycle `RXBUF` is either kept or written at `rx_idx` with the byte accepted. -/
theorem rxbufChangesOnlyAtThePayloadIndex : Obligations.RxbufChangesOnlyAtThePayloadIndex := by
  intro s t h
  obtain ⟨rfl, -⟩ := step_next_lockstep h
  cases hRst : (currentInputs s).rst with
  | true =>
    rw [lockstep_of_rst hRst]
    exact ⟨fun a hChanged => absurd rfl hChanged, nofun⟩
  | false =>
    rw [lockstep_of_not_rst hRst]
    change (∀ a, Memory.read (rxAfter s _).buf a ≠ _ → _) ∧ (_ → _ → Memory.read (rxAfter s _).buf _ = _)
    cases hTakes : takesPayload s (currentInputs s) with
    | false =>
      rw [rxAfter_buf_of_no_payload hTakes]
      exact ⟨fun a hChanged => absurd rfl hChanged, nofun⟩
    | true =>
      rw [rxAfter_buf_of_payload hTakes]
      refine ⟨fun a hChanged => ⟨rfl, rfl, ?_⟩, fun _ _ => Memory.read_write_same _ _ _⟩
      by_contra hOther
      exact hChanged (Memory.read_write_other _ _ hOther)

theorem fireRx_of_pending {s : State} (i : Inputs) (h : s.rx.pending = true) : fireRx s i = false := by
  simp [fireRx, h]

/-- Settles O15: with a packet pending no byte is accepted, and every rule of the lockstep cycle that writes these
registers needs one. -/
theorem pendingPacketIsStable : Obligations.PendingPacketIsStable := by
  intro s t hPending hRst h
  obtain ⟨rfl, -⟩ := step_next_lockstep h
  have hFire := fireRx_of_pending (currentInputs s) hPending
  have hTakes : takesPayload s (currentInputs s) = false := by simp [takesPayload, hFire]
  rw [lockstep_of_not_rst hRst]
  simp [ordinaryAfter, RxbufKept, rxAfter, outputs, hFire, hTakes, hPending, checksumHolds]

/-! ## The state after reset (R65) -/

/-- Settles O20: a closed fact about one state. -/
theorem resetStateHasTheListedValues : Obligations.ResetStateHasTheListedValues := by
  unfold Obligations.ResetStateHasTheListedValues
  decide

theorem inv_reset : Inv State.reset where
  params := by constructor <;> decide
  rxbuf := ⟨reset_memory_wf, fun _ _ => rfl⟩
  maxPayload := by unfold MaxPayloadOk; decide
  rx := by constructor <;> decide
  tx := by constructor <;> decide
  map := by constructor <;> decide

theorem checksumInv_reset : ChecksumInv State.reset where
  accumulator := trivial
  delivered := nofun

/-- Settles O23: no packet is under way or pending, and no beat is presented. -/
theorem invariantsHoldAtReset : Obligations.InvariantsHoldAtReset := ⟨inv_reset, checksumInv_reset⟩

/-! ## What an update leaves unchanged (R21, R23) -/

/-- Every element outside the list is the same in both states. -/
def KeptOutside (es : List Element) (s t : State) : Prop := ∀ e : Element, e ∉ es → e.kept s t

/-- These outputs beside the others of `o`. -/
def Outputs.withDriven (d o : Outputs) : Outputs :=
  { o with
    txValid := d.txValid, txData := d.txData, scaleOut := d.scaleOut, csrRdata := d.csrRdata, rxReady := d.rxReady,
    txReqReady := d.txReqReady, txPlReady := d.txPlReady, mapReqReady := d.mapReqReady, irq := d.irq }

theorem kept_refl (e : Element) (s : State) : e.kept s s := by
  cases e with
  | rxbuf => exact fun _ => rfl
  | readyPorts => exact ⟨rfl, rfl, rfl, rfl, rfl⟩
  | _ => exact rfl

theorem kept_trans {e : Element} {s t u : State} (h : e.kept s t) (h' : e.kept t u) : e.kept s u := by
  cases e with
  | rxbuf => exact fun a => (h' a).trans (h a)
  | readyPorts =>
    obtain ⟨hRx, hTxReq, hTxPl, hMapReq, hIrq⟩ := h
    obtain ⟨hRx', hTxReq', hTxPl', hMapReq', hIrq'⟩ := h'
    exact ⟨hRx'.trans hRx, hTxReq'.trans hTxReq, hTxPl'.trans hTxPl, hMapReq'.trans hMapReq, hIrq'.trans hIrq⟩
  | otherPorts =>
    have hOut := congrArg (Outputs.withDriven u.out) (show t.out = Outputs.withDriven t.out s.out from h)
    exact Eq.trans h' hOut
  | _ => exact Eq.trans h' h

theorem KeptOutside.refl (es : List Element) (s : State) : KeptOutside es s s := fun e _ => kept_refl e s

theorem KeptOutside.mono {es es' : List Element} {s t : State} (h : KeptOutside es s t) (hSub : es ⊆ es') :
    KeptOutside es' s t :=
  fun e he => h e fun hMem => he (hSub hMem)

theorem KeptOutside.trans {es es' : List Element} {s t u : State} (h : KeptOutside es s t) (h' : KeptOutside es' t u) :
    KeptOutside (es ++ es') s u := by
  intro e he
  obtain ⟨hL, hR⟩ := not_or.mp (List.mem_append.not.mp he)
  exact kept_trans (h e hL) (h' e hR)

/-- A framer's registers outside the list are the same. -/
def RxUnit.KeptOutside (es : List Element) (r r' : RxUnit) : Prop :=
  (.rxState ∉ es → r'.state = r.state) ∧ (.rxAcc ∉ es → r'.acc = r.acc) ∧ (.rxFlags ∉ es → r'.flags = r.flags) ∧
    (.rxLen ∉ es → r'.len = r.len) ∧ (.rxCmd ∉ es → r'.cmd = r.cmd) ∧ (.rxChk ∉ es → r'.chk = r.chk) ∧
    (.rxIdx ∉ es → r'.idx = r.idx) ∧ (.idleCnt ∉ es → r'.idle = r.idle) ∧
    (.pktPending ∉ es → r'.pending = r.pending) ∧ (.rxbuf ∉ es → r'.buf = r.buf) ∧
    (.plRdQ ∉ es → r'.plRdQ = r.plRdQ) ∧ (.chkErrCnt ∉ es → r'.chkErr = r.chkErr) ∧
    (.lastDrop ∉ es → r'.lastDrop = r.lastDrop)

/-- An encoder's registers outside the list are the same. -/
def TxUnit.KeptOutside (es : List Element) (x x' : TxUnit) : Prop :=
  (.txState ∉ es → x'.state = x.state) ∧ (.txFlags ∉ es → x'.flags = x.flags) ∧ (.txLen ∉ es → x'.len = x.len) ∧
    (.txCmd ∉ es → x'.cmd = x.cmd) ∧ (.txCnt ∉ es → x'.cnt = x.cnt) ∧ (.txAcc ∉ es → x'.acc = x.acc)

/-- A mapper's registers outside the list are the same. -/
def MapUnit.KeptOutside (es : List Element) (m m' : MapUnit) : Prop :=
  (.mW ∉ es → m'.w = m.w) ∧ (.mN ∉ es → m'.n = m.n) ∧ (.rspValid ∉ es → m'.valid = m.valid) ∧
    (.rspAddr ∉ es → m'.addr = m.addr) ∧ (.rspStrip ∉ es → m'.strip = m.strip) ∧ (.rspPos ∉ es → m'.pos = m.pos) ∧
    (.rspLast ∉ es → m'.last = m.last) ∧ (.rspErr ∉ es → m'.err = m.err)

/-- The configuration registers outside the list are the same. -/
def CsrUnit.KeptOutside (es : List Element) (c c' : CsrUnit) : Prop :=
  (.ctrl ∉ es → c'.txResp = c.txResp) ∧ (.maxPayload ∉ es → c'.maxPayload = c.maxPayload) ∧
    (.irqEn ∉ es → c'.irqEn = c.irqEn) ∧ (.mapMode ∉ es → c'.mode = c.mode) ∧
    (.physWidth ∉ es → c'.physWidth = c.physWidth) ∧ (.stripCount ∉ es → c'.stripCount = c.stripCount) ∧
    (.brightness ∉ es → c'.brightness = c.brightness)

/-! An update of one unit keeps every element of the others, so only its own registers are to be compared. -/

theorem keptOutside_setRx {es : List Element} {s : State} {r : RxUnit} (h : s.rx.KeptOutside es r) :
    KeptOutside es s (s.setRx r) := by
  obtain ⟨hState, hAcc, hFlags, hLen, hCmd, hChk, hIdx, hIdle, hPending, hBuf, hRdQ, hCnt, hDrop⟩ := h
  intro e he
  have hSame := kept_refl e s
  cases e with
  | rxState => exact hState he
  | rxAcc => exact hAcc he
  | rxFlags => exact hFlags he
  | rxLen => exact hLen he
  | rxCmd => exact hCmd he
  | rxChk => exact hChk he
  | rxIdx => exact hIdx he
  | idleCnt => exact hIdle he
  | pktPending => exact hPending he
  | rxbuf => exact fun a => congrArg (Memory.read · a) (hBuf he)
  | plRdQ => exact hRdQ he
  | chkErrCnt => exact hCnt he
  | lastDrop => exact hDrop he
  | _ => exact hSame

theorem keptOutside_setTx {es : List Element} {s : State} {x : TxUnit} (h : s.tx.KeptOutside es x) :
    KeptOutside es s (s.setTx x) := by
  obtain ⟨hState, hFlags, hLen, hCmd, hCnt, hAcc⟩ := h
  intro e he
  have hSame := kept_refl e s
  cases e with
  | txState => exact hState he
  | txFlags => exact hFlags he
  | txLen => exact hLen he
  | txCmd => exact hCmd he
  | txCnt => exact hCnt he
  | txAcc => exact hAcc he
  | _ => exact hSame

theorem keptOutside_setMap {es : List Element} {s : State} {m : MapUnit} (h : s.map.KeptOutside es m) :
    KeptOutside es s (s.setMap m) := by
  obtain ⟨hW, hN, hValid, hAddr, hStrip, hPos, hLast, hErr⟩ := h
  intro e he
  have hSame := kept_refl e s
  cases e with
  | mW => exact hW he
  | mN => exact hN he
  | rspValid => exact hValid he
  | rspAddr => exact hAddr he
  | rspStrip => exact hStrip he
  | rspPos => exact hPos he
  | rspLast => exact hLast he
  | rspErr => exact hErr he
  | _ => exact hSame

theorem keptOutside_setCsr {es : List Element} {s : State} {c : CsrUnit} (h : s.csr.KeptOutside es c) :
    KeptOutside es s (s.setCsr c) := by
  obtain ⟨hResp, hMax, hIrq, hMode, hWidth, hStrips, hBright⟩ := h
  intro e he
  have hSame := kept_refl e s
  cases e with
  | ctrl => exact hResp he
  | maxPayload => exact hMax he
  | irqEn => exact hIrq he
  | mapMode => exact hMode he
  | physWidth => exact hWidth he
  | stripCount => exact hStrips he
  | brightness => exact hBright he
  | _ => exact hSame

theorem keptOutside_setEvent (s : State) (b : BitVec 5) : KeptOutside [.event] s (s.setEvent b) := by
  intro e h
  have hSame := kept_refl e s
  cases e with
  | event => exact absurd h (by decide)
  | _ => exact hSame

theorem keptOutside_sendByte (b : Byte) (s : State) : KeptOutside sinkPorts s (sendByte b s) := by
  intro e h
  have hSame := kept_refl e s
  cases e with
  | txValidPort | txDataPort => exact absurd h (by decide)
  | otherPorts => exact rfl
  | _ => exact hSame

theorem keptOutside_driveReadData (v : Half) (s : State) : KeptOutside [.rdataPort] s (driveReadData v s) := by
  intro e h
  have hSame := kept_refl e s
  cases e with
  | rdataPort => exact absurd h (by decide)
  | otherPorts => exact rfl
  | _ => exact hSame

theorem keptOutside_scale (v : Byte) (s : State) :
    KeptOutside [.scalePort] s (s.setOut { s.out with scaleOut := v }) := by
  intro e h
  have hSame := kept_refl e s
  cases e with
  | scalePort => exact absurd h (by decide)
  | otherPorts => exact rfl
  | _ => exact hSame

/-! ## What the shared operations leave unchanged -/

theorem keptOutside_raiseEvent (bits : BitVec 5) (s : State) : KeptOutside [.event] s (raiseEvent bits s) :=
  keptOutside_setEvent s _

theorem keptOutside_raiseDrop (code : Byte) (s : State) : KeptOutside dropElements s (raiseDrop code s) := by
  have hRx : KeptOutside [.rxState, .lastDrop] s (s.setRx { s.rx with state := .waitStart, lastDrop := code }) :=
    keptOutside_setRx (by simp [RxUnit.KeptOutside])
  exact hRx.trans (keptOutside_raiseEvent _ _)

theorem keptOutside_acceptByte (s : State) : KeptOutside [.idleCnt] s (acceptByte s) :=
  keptOutside_setRx (by simp [RxUnit.KeptOutside])

theorem keptOutside_startPacket (s : State) : KeptOutside [.idleCnt, .rxAcc, .rxState] s (startPacket s) :=
  keptOutside_setRx (by simp [RxUnit.KeptOutside])

theorem keptOutside_waitByte (b : Byte) (s : State) : KeptOutside [.idleCnt, .rxAcc, .rxState] s (waitByte b s) := by
  unfold waitByte
  split
  · exact keptOutside_startPacket s
  · exact (keptOutside_acceptByte s).mono (by simp)

theorem keptOutside_commandNoPayload (b : Byte) (s : State) :
    KeptOutside [.idleCnt, .rxCmd, .rxAcc, .rxState] s (commandNoPayload b s) :=
  keptOutside_setRx (by simp [RxUnit.KeptOutside])

theorem keptOutside_commandWithPayload (b : Byte) (s : State) :
    KeptOutside commandElements s (commandWithPayload b s) :=
  keptOutside_setRx (by simp [commandElements, RxUnit.KeptOutside])

theorem keptOutside_carryCommand (code : Byte) (s : State) : KeptOutside commandElements s (carryCommand code s) := by
  unfold carryCommand
  split
  · exact (keptOutside_commandNoPayload code s).mono (by simp [commandElements])
  · exact keptOutside_commandWithPayload code s

theorem keptOutside_countTick (s : State) : KeptOutside [.idleCnt] s (countTick s) :=
  keptOutside_setRx (by simp [RxUnit.KeptOutside])

/-- A byte sent, with an update of the encoder. -/
theorem keptOutside_sendByte_setTx {es : List Element} {b : Byte} {s : State} {x : TxUnit} (hPorts : sinkPorts ⊆ es)
    (h : s.tx.KeptOutside es x) : KeptOutside es s ((sendByte b s).setTx x) :=
  ((keptOutside_sendByte b s).trans (keptOutside_setTx h)).mono (List.append_subset.mpr ⟨hPorts, List.Subset.refl _⟩)

theorem keptOutside_sendHeader (b : Byte) (next : TxState) (s : State) :
    KeptOutside ([.txState, .txAcc] ++ sinkPorts) s (sendHeader b next s) :=
  keptOutside_sendByte_setTx (List.subset_append_right _ _) (by simp [TxUnit.KeptOutside])

theorem keptOutside_loadBeat (strip pos addr : Nat) (last : Bool) (err : Byte) (s : State) :
    KeptOutside beatElements s (loadBeat strip pos addr last err s) :=
  keptOutside_setMap (by simp [beatElements, MapUnit.KeptOutside])

theorem keptOutside_errorBeat (code : Byte) (s : State) : KeptOutside (.event :: beatElements) s (errorBeat code s) :=
  ((keptOutside_loadBeat 0 0 0 true code s).trans (keptOutside_raiseEvent _ _)).mono (by simp [beatElements])

/-- A row that answers with an error beat or with a beat (R195 to R201). -/
theorem keptOutside_beatOr {c : Prop} [Decidable c] {s t : State} (code : Byte) (h : KeptOutside beatElements s t) :
    KeptOutside (.event :: beatElements) s (if c then errorBeat code s else t) := by
  split
  · exact keptOutside_errorBeat code s
  · exact h.mono (List.subset_cons_self _ _)

theorem keptOutside_mapStripBeat (strip : Byte) (l : Half) (s : State) :
    KeptOutside (.event :: beatElements) s (mapStripBeat strip l s) :=
  keptOutside_beatOr _ (keptOutside_loadBeat _ _ _ _ _ s)

theorem keptOutside_mapBroadcastBeat (l : Half) (s : State) :
    KeptOutside (.event :: beatElements) s (mapBroadcastBeat l s) :=
  keptOutside_beatOr _ (keptOutside_loadBeat _ _ _ _ _ s)

theorem keptOutside_mapFlatBeat (l : Half) (s : State) : KeptOutside (.event :: beatElements) s (mapFlatBeat l s) :=
  keptOutside_beatOr _ (keptOutside_loadBeat _ _ _ _ _ s)

theorem keptOutside_mapFoldBeat (l : Half) (s : State) : KeptOutside (.event :: beatElements) s (mapFoldBeat l s) :=
  keptOutside_beatOr _ (keptOutside_loadBeat _ _ _ _ _ s)

theorem keptOutside_applyMapRow (strip : Byte) (l : Half) (s : State) :
    KeptOutside (.event :: beatElements) s (applyMapRow strip l s) := by
  have hLoad : ∀ beat : Beat, KeptOutside beatElements s (s.setMap (s.map.load beat)) := fun _ =>
    keptOutside_setMap (by simp [beatElements, MapUnit.KeptOutside, MapUnit.load])
  rw [applyMapRow_eq]
  exact ((hLoad _).trans (keptOutside_setEvent _ _)).mono (by simp [beatElements])

theorem keptOutside_latchGeometry (s : State) : KeptOutside [.mW, .mN] s (latchGeometry s) :=
  keptOutside_setMap (by simp [MapUnit.KeptOutside])

theorem keptOutside_nextBroadcastBeat (s : State) : KeptOutside beatElements s (nextBroadcastBeat s) :=
  keptOutside_loadBeat _ _ _ _ _ s

theorem keptOutside_writeConfig {es : List Element} {s : State} {c : CsrUnit} (hPort : .rdataPort ∈ es)
    (h : s.csr.KeptOutside es c) : KeptOutside es s (writeConfig c s) :=
  ((keptOutside_setCsr h).trans (keptOutside_driveReadData 0 _)).mono (by simp [hPort])

theorem keptOutside_resetBlock (s : State) : KeptOutside (writes .reset) s (resetBlock s) := by
  intro e h
  have hSame := kept_refl e s
  cases e with
  | rxbuf | txDataPort | scalePort => exact hSame
  | otherPorts => exact rfl
  | _ => exact absurd h (by decide)

/-! ## What each operation leaves unchanged -/

theorem keptOutside_of_next {es : List Element} {s t u : State} (h : (Host.Outcome.next u : Result) = .next t)
    (hu : KeptOutside es s u) : KeptOutside es s t := by
  rw [← Host.Outcome.next.inj h]
  exact hu

/-- Every operation keeps the elements that its row of `writes` does not list. -/
theorem exec_keptOutside_writes {i : Instr} {s t : State} (h : exec i s = .next t) : KeptOutside (writes i) s t := by
  cases i with
  | rxWsStart => exact keptOutside_of_next h (keptOutside_startPacket s)
  | rxWsSkip => exact keptOutside_of_next h (keptOutside_acceptByte s)
  | rxFlags | rxLenLo | rxLenHi | rxChkOk | plRd =>
    exact keptOutside_of_next h (keptOutside_setRx (by simp [writes, RxUnit.KeptOutside]))
  | rxLenHiOversize | rxChkBad =>
    refine keptOutside_of_next h (KeptOutside.trans ?_ (keptOutside_raiseDrop _ _))
    exact keptOutside_setRx (by simp [RxUnit.KeptOutside])
  | rxCmdEmpty b => exact keptOutside_of_next h (keptOutside_commandNoPayload b s)
  | rxCmd b => exact keptOutside_of_next h (keptOutside_commandWithPayload b s)
  | rxPayload | rxPayloadLast =>
    obtain ⟨-, rfl⟩ := storePayload_next h
    exact keptOutside_setRx (by simp [writes, RxUnit.KeptOutside, RxUnit.stored])
  | rxState7 b => exact keptOutside_of_next h (keptOutside_waitByte b s)
  | rxTick =>
    refine keptOutside_of_next h ?_
    split
    · exact (keptOutside_countTick s).trans (keptOutside_raiseDrop _ _)
    · exact (keptOutside_countTick s).mono (by simp [writes])
  | rxTimeout => exact keptOutside_of_next h (keptOutside_raiseDrop _ s)
  | pktAck =>
    refine keptOutside_of_next h ?_
    split
    · exact keptOutside_setRx (by simp [writes, RxUnit.KeptOutside])
    · exact KeptOutside.refl _ s
  | txReq => exact keptOutside_of_next h (keptOutside_setTx (by simp [writes, TxUnit.KeptOutside]))
  | txReqRefuse => exact keptOutside_of_next h (keptOutside_raiseEvent _ s)
  | txEmitStart | txEmitPayload | txEmitChk =>
    exact keptOutside_of_next h
      (keptOutside_sendByte_setTx (by simp [writes, sinkPorts]) (by simp [writes, TxUnit.KeptOutside]))
  | txEmitFlags | txEmitLenLo | txEmitLenHi => exact keptOutside_of_next h (keptOutside_sendHeader _ _ s)
  | txEmitCmd =>
    refine keptOutside_of_next h ?_
    split
    · exact (keptOutside_sendHeader _ _ s).mono (by simp [writes, sinkPorts])
    · exact keptOutside_sendByte_setTx (by simp [writes, sinkPorts]) (by simp [writes, TxUnit.KeptOutside])
  | mapAccept strip l =>
    exact keptOutside_of_next h ((keptOutside_latchGeometry s).trans (keptOutside_applyMapRow strip l _))
  | mapCfgErr | mapRsvd => exact keptOutside_of_next h (keptOutside_errorBeat _ s)
  | mapStripBcast l => exact keptOutside_of_next h (keptOutside_mapBroadcastBeat l s)
  | mapStrip strip l => exact keptOutside_of_next h (keptOutside_mapStripBeat strip l s)
  | mapFlat _ l => exact keptOutside_of_next h (keptOutside_mapFlatBeat l s)
  | mapFold _ l => exact keptOutside_of_next h (keptOutside_mapFoldBeat l s)
  | mapBeat =>
    refine keptOutside_of_next h ?_
    split
    · exact keptOutside_setMap (by simp [writes, beatElements, MapUnit.KeptOutside])
    · exact keptOutside_nextBroadcastBeat s
  | mapBcastNext => exact keptOutside_of_next h (keptOutside_nextBroadcastBeat s)
  | csrWrCtrl | csrWrMaxPayload | csrWrIrqEn | csrWrMapMode | csrWrPhysWidth | csrWrStripCount | csrWrBrightness =>
    exact keptOutside_of_next h
      (keptOutside_writeConfig (by simp [writes]) (by simp [writes, CsrUnit.KeptOutside]))
  | csrWrEvent =>
    exact keptOutside_of_next h ((keptOutside_setEvent s _).trans (keptOutside_driveReadData 0 _))
  | scale => exact keptOutside_of_next h (keptOutside_scale _ s)
  | reset => exact keptOutside_of_next h (keptOutside_resetBlock s)
  | cmdNop | cmdReset | cmdAck | cmdNak | cmdHello | cmdShow | cmdGetInfo | cmdGetPixels | cmdGetControl
  | cmdInfoResponse | cmdPixelResponse | cmdControlResponse | cmdPixelSetAll | cmdPixelSetRange | cmdPixelFrame
  | cmdSetControl | cmdStatusUpdate | cmdFrameAck | cmdInputEvent =>
    exact keptOutside_of_next h (keptOutside_carryCommand _ s)
  | _ => exact keptOutside_of_next h (keptOutside_driveReadData _ s)

/-! ## Which rows list an element

The membership is evaluated as a Boolean: the rows that list the element are named, and in every other it is `false`. -/

/-- The configuration registers (R41 to R50). -/
def csrElements : List Element := [.ctrl, .maxPayload, .irqEn, .mapMode, .physWidth, .stripCount, .brightness]

theorem chkErrCnt_mem_writes {i : Instr} (h : .chkErrCnt ∈ writes i) :
    (∃ b, i = .rxChkBad b) ∨ i = .reset := by
  have hElem := List.elem_iff.mpr h
  cases i with
  | rxChkBad b => exact .inl ⟨b, rfl⟩
  | reset => exact .inr rfl
  | _ => exact (Bool.false_ne_true hElem).elim

theorem lastDrop_mem_writes {i : Instr} (h : .lastDrop ∈ writes i) :
    (∃ b, i = .rxChkBad b ∨ i = .rxLenHiOversize b) ∨ i = .rxTick ∨ i = .rxTimeout ∨ i = .reset := by
  have hElem := List.elem_iff.mpr h
  cases i with
  | rxChkBad b | rxLenHiOversize b => exact .inl ⟨b, by simp⟩
  | rxTick | rxTimeout | reset => simp
  | _ => exact (Bool.false_ne_true hElem).elim

theorem rxbuf_mem_writes {i : Instr} (h : .rxbuf ∈ writes i) :
    ∃ b, i = .rxPayload b ∨ i = .rxPayloadLast b := by
  have hElem := List.elem_iff.mpr h
  cases i with
  | rxPayload b | rxPayloadLast b => exact ⟨b, by simp⟩
  | _ => exact (Bool.false_ne_true hElem).elim

theorem plRdQ_mem_writes {i : Instr} (h : .plRdQ ∈ writes i) :
    (∃ a, i = .plRd a) ∨ i = .reset := by
  have hElem := List.elem_iff.mpr h
  cases i with
  | plRd a => exact .inl ⟨a, rfl⟩
  | reset => exact .inr rfl
  | _ => exact (Bool.false_ne_true hElem).elim

theorem pktPending_mem_writes {i : Instr} (h : .pktPending ∈ writes i) :
    (∃ b, i = .rxChkOk b) ∨ i = .pktAck ∨ i = .reset := by
  have hElem := List.elem_iff.mpr h
  cases i with
  | rxChkOk b => exact .inl ⟨b, rfl⟩
  | pktAck | reset => simp
  | _ => exact (Bool.false_ne_true hElem).elim

theorem txLen_mem_writes {i : Instr} (h : .txLen ∈ writes i) :
    (∃ f c n, i = .txReq f c n) ∨ i = .reset := by
  have hElem := List.elem_iff.mpr h
  cases i with
  | txReq f c n => exact .inl ⟨f, c, n, rfl⟩
  | reset => exact .inr rfl
  | _ => exact (Bool.false_ne_true hElem).elim

theorem geometry_mem_writes {i : Instr} (h : .mW ∈ writes i ∨ .mN ∈ writes i) :
    (∃ strip l, i = .mapAccept strip l) ∨ i = .reset := by
  have hElem := Bool.or_eq_true_iff.mpr (h.imp List.elem_iff.mpr List.elem_iff.mpr)
  cases i with
  | mapAccept strip l => exact .inl ⟨strip, l, rfl⟩
  | reset => exact .inr rfl
  | _ => exact (Bool.false_ne_true hElem).elim

theorem csr_mem_writes {i : Instr} (h : ∃ e ∈ csrElements, e ∈ writes i) :
    (∃ d, i = .csrWrCtrl d ∨ i = .csrWrMaxPayload d ∨ i = .csrWrIrqEn d ∨ i = .csrWrMapMode d ∨
      i = .csrWrPhysWidth d ∨ i = .csrWrStripCount d ∨ i = .csrWrBrightness d) ∨ i = .reset := by
  have hElem := List.any_eq_true.mpr (h.imp fun e he => ⟨he.1, List.elem_iff.mpr he.2⟩)
  cases i with
  | csrWrCtrl d | csrWrMaxPayload d | csrWrIrqEn d | csrWrMapMode d | csrWrPhysWidth d | csrWrStripCount d
  | csrWrBrightness d => exact .inl ⟨d, by simp⟩
  | reset => exact .inr rfl
  | _ => exact (Bool.false_ne_true hElem).elim

theorem mem_of_changed {es : List Element} {e : Element} {s t : State} (h : KeptOutside es s t)
    (he : ¬ e.kept s t) : e ∈ es :=
  Classical.not_not.mp fun hNot => he (h e hNot)

/-- A changed configuration has a changed register. -/
theorem csr_changed {es : List Element} {s t : State} (h : KeptOutside es s t) (hCsr : t.csr ≠ s.csr) :
    ∃ e ∈ csrElements, e ∈ es := by
  by_contra hNone
  push Not at hNone
  have hKept : ∀ e ∈ csrElements, e.kept s t := fun e he => h e (hNone e he)
  simp only [csrElements, List.forall_mem_cons] at hKept
  obtain ⟨hResp, hMax, hIrq, hMode, hWidth, hStrips, hBright, -⟩ := hKept
  exact hCsr ((CsrUnit.mk.injEq ..).mpr ⟨hResp, hMax, hIrq, hMode, hWidth, hStrips, hBright⟩)

/-- No operation, the reset included, changes the model's own fields. -/
theorem exec_environment_kept {i : Instr} {s t : State} (h : exec i s = .next t) :
    t.cfg = s.cfg ∧ t.env = s.env ∧ t.held = s.held := by
  by_cases hi : i = .reset
  · subst hi
    rw [← Host.Outcome.next.inj h]
    exact ⟨rfl, rfl, rfl⟩
  · have hFrame := cycleFrame_of_exec hi h
    exact ⟨congrArg CycleFrame.cfg hFrame, congrArg CycleFrame.env hFrame, congrArg CycleFrame.held hFrame⟩

/-- Settles O19: `exec_keptOutside_writes` is its first clause; each further one follows from it and from which rows of
`writes` list the element. -/
theorem onlyNamedOperationsWrite : Obligations.OnlyNamedOperationsWrite := by
  intro i s t h
  have hKept := exec_keptOutside_writes h
  refine ⟨hKept, fun hNe => chkErrCnt_mem_writes (mem_of_changed hKept hNe),
    fun hNe => lastDrop_mem_writes (mem_of_changed hKept hNe), fun hNe => rxbuf_mem_writes (mem_of_changed hKept hNe),
    fun hNe => plRdQ_mem_writes (mem_of_changed hKept hNe), fun hNe => pktPending_mem_writes (mem_of_changed hKept hNe),
    fun hNe => csr_mem_writes (csr_changed hKept hNe), fun hNe => geometry_mem_writes ?_,
    fun hNe => txLen_mem_writes (mem_of_changed hKept hNe), exec_environment_kept h⟩
  exact hNe.imp (mem_of_changed hKept) (mem_of_changed hKept)

end Sys2Proof.Machine
end

section
/-! PROOFS of the statements of spec/20_memory.md: the address of a mapped pixel. -/

namespace Sys2Proof.Machine

/-! ## A valid geometry (R192) -/

theorem geometryValid_bounds {mode : MapMode} {w n : Nat} (h : geometryValid mode w n = true) :
    n ≤ Config.maxStrips ∧ n * w ≤ Config.maxPixels := by
  cases mode with
  | reserved => cases h
  | strip | flat =>
    obtain ⟨-, hStrips, -, hPixels⟩ := of_decide_eq_true h
    exact ⟨hStrips, hPixels⟩
  | folded =>
    obtain ⟨-, hStrips, -, hPixels⟩ := of_decide_eq_true ((Bool.and_eq_true _ _).mp h).1
    exact ⟨hStrips, hPixels⟩

theorem even_of_geometryValid_folded {w n : Nat} (h : geometryValid .folded w n = true) : w % 2 = 0 :=
  of_decide_eq_true ((Bool.and_eq_true _ _).mp h).2

/-! ## The pixel of a logical index (R199, R200) -/

theorem foldPosition_lt {w col : Nat} (row : Nat) (h : col < w) : foldPosition w row col < w := by
  unfold foldPosition
  split <;> omega

/-- Strip `k` holds the rows `2k` and `2k + 1` of `w / 2` columns each. -/
theorem foldPixel_inRange {w n l : Nat} (hEven : w % 2 = 0) (h : l < w * n) :
    (foldPixel w l).1 < n ∧ (foldPixel w l).2 < w := by
  have hw : 0 < w := Nat.pos_of_lt_mul_right h
  have hRow : l / (w / 2) < 2 * n := Nat.div_lt_of_lt_mul (by rwa [fold_pixels hEven])
  have hCol : l % (w / 2) < w / 2 := Nat.mod_lt l (by omega)
  exact ⟨Nat.div_lt_of_lt_mul hRow, foldPosition_lt _ (by omega)⟩

theorem pixelIndex_lt {w n strip pos : Nat} (hStrip : strip < n) (hPos : pos < w) : strip * w + pos < n * w :=
  calc strip * w + pos < strip * w + w := Nat.add_lt_add_left hPos _
    _ = (strip + 1) * w := (Nat.succ_mul strip w).symm
    _ ≤ n * w := Nat.mul_le_mul_right w hStrip

/-! ## The first beat of a request -/

/-- A guard whose failure is answered by an error beat holds when the beat has no error. -/
theorem guard_of_err_ok {c : Prop} [Decidable c] {b : Beat} {code : Byte} (hCode : code ≠ Config.errOk)
    (h : (if c then b else Beat.error code).err = Config.errOk) : c := by
  by_contra hc
  rw [if_neg hc] at h
  exact hCode h

/-- A beat without error is a pixel in range under a valid geometry. -/
theorem mapBeatOf_ok {mode : MapMode} {w n : Nat} {strip : Byte} {l : Nat}
    (h : (mapBeatOf mode w n strip l).err = Config.errOk) :
    geometryValid mode w n = true ∧ ∃ k p last, k < n ∧ p < w ∧
      mapBeatOf mode w n strip l = { Beat.pixel w k p with last := last } := by
  have hParam : Config.errInvalidParam ≠ Config.errOk := by decide
  have hConfig : Config.errConfig ≠ Config.errOk := by decide
  unfold mapBeatOf at h ⊢
  have hValid : geometryValid mode w n = true := guard_of_err_ok hConfig h
  refine ⟨hValid, ?_⟩
  rw [if_pos hValid] at h ⊢
  cases mode with
  | strip =>
    by_cases hAll : strip = Config.broadcastStrip
    · simp only [if_pos hAll] at h ⊢
      have hl : l < w := guard_of_err_ok hParam h
      have hn : 0 < n := (of_decide_eq_true hValid).1
      exact ⟨0, l, decide (n = 1), hn, hl, if_pos hl⟩
    · simp only [if_neg hAll] at h ⊢
      have hl : strip.toNat < n ∧ l < w := guard_of_err_ok hParam h
      exact ⟨strip.toNat, l, true, hl.1, hl.2, if_pos hl⟩
  | flat =>
    have hl : l < w * n := guard_of_err_ok hParam h
    have hCol : l % w < w := Nat.mod_lt l (Nat.pos_of_lt_mul_right hl)
    exact ⟨l / w, l % w, true, Nat.div_lt_of_lt_mul hl, hCol, if_pos hl⟩
  | folded =>
    have hl : l < w * n := guard_of_err_ok hParam h
    obtain ⟨hStrip, hPos⟩ := foldPixel_inRange (even_of_geometryValid_folded hValid) hl
    exact ⟨(foldPixel w l).1, (foldPixel w l).2, true, hStrip, hPos, if_pos hl⟩
  | reserved => exact (hConfig h).elim

/-- The beat registers after an accepted request (R193, R194). -/
theorem map_of_exec_mapAccept {s t : State} {strip : Byte} {l : Half} (h : exec (.mapAccept strip l) s = .next t) :
    t.map = MapUnit.load { s.map with w := s.csr.physWidth, n := s.csr.stripCount }
      (mapBeatOf s.csr.mode (widthOf s) (stripsOf s) strip l.toNat) := by
  have hExec := exec_mapAccept (s := s) { mapReqStrip := strip, mapReqIndex := l } rfl rfl
  rw [← Host.Outcome.next.inj (hExec.symm.trans h), raiseEvent_eq]
  rfl

/-- A pixel of a valid geometry fits the beat registers (R12, R71). -/
theorem load_pixel_toNat {mode : MapMode} {w n k p : Nat} (m : MapUnit) (last : Bool)
    (hValid : geometryValid mode w n = true) (hStrip : k < n) (hPos : p < w) :
    (m.load { Beat.pixel w k p with last := last }).strip.toNat = k ∧
      (m.load { Beat.pixel w k p with last := last }).pos.toNat = p ∧
      (m.load { Beat.pixel w k p with last := last }).addr.toNat = k * w + p := by
  obtain ⟨hStrips, hPixels⟩ := geometryValid_bounds hValid
  simp only [Config.maxStrips, Config.maxPixels] at hStrips hPixels
  have hAddr : k * w + p < n * w := pixelIndex_lt hStrip hPos
  simp only [MapUnit.load, Beat.pixel, BitVec.toNat_ofNat]
  exact ⟨Nat.mod_eq_of_lt (by omega), Nat.mod_eq_of_lt (by omega), Nat.mod_eq_of_lt (by omega)⟩

/-- Settles O45: `mapBeatOf_ok` names the pixel of the beat, and a pixel of a valid geometry is stored unchanged. -/
theorem mappedPixelIsInRange : Obligations.MappedPixelIsInRange := by
  intro s t strip l h hErr
  rw [map_of_exec_mapAccept h] at hErr ⊢
  obtain ⟨hValid, k, p, last, hStrip, hPos, hBeat⟩ := mapBeatOf_ok hErr
  rw [hBeat]
  obtain ⟨hk, hp, ha⟩ := load_pixel_toNat { s.map with w := s.csr.physWidth, n := s.csr.stripCount } last hValid hStrip hPos
  rw [hk, hp, ha]
  exact ⟨hStrip, hPos, rfl, pixelIndex_lt hStrip hPos⟩

end Sys2Proof.Machine
end

section
/-! PROOFS of the statements of spec/30_encoding.md: every operation is read back from its own word; the receive table of
R99, the mapper's rows (R102) and the wire command codes (R105). -/

namespace Sys2Proof.Machine

/-! ## Every operation is read back from its own word (R99 to R105) -/

/-- Settles O1: the word of each format decodes by its table (`decode_rxWord` and its like); the three operands that
`WellFormed` restricts are those the decoder compares before it takes the operation's row. -/
theorem decodeOfEncodeIsTheInstruction : Obligations.DecodeOfEncodeIsTheInstruction := by
  intro i hWf
  cases i with
  | rxWsSkip b => exact (decode_rxWord 0 b false).trans (congrArg Except.ok (if_neg hWf))
  | mapStrip strip l => exact (decode_mapRowWord 0 strip l true).trans (congrArg Except.ok (if_neg hWf))
  | txReqRefuse n => exact decode_txReqWord false 0 0 n fun _ => hWf
  | rxWsStart | rxFlags | rxLenLo | rxLenHiOversize | rxLenHi | rxCmdEmpty | rxCmd | rxPayloadLast | rxPayload
  | rxChkOk | rxChkBad | rxState7 => exact decode_rxWord _ _ _
  | rxTick => exact decode_tickWord
  | rxTimeout => exact decode_timeoutWord
  | pktAck => exact decode_ackWord
  | plRd a => exact decode_plRdWord a
  | txReq f c n => exact decode_txReqWord true f c n nofun
  | txEmitStart | txEmitFlags | txEmitLenLo | txEmitLenHi | txEmitCmd | txEmitPayload | txEmitChk =>
    exact decode_txWord _ _
  | mapAccept strip l => exact decode_mapAcceptWord 0 strip l false
  | mapCfgErr | mapStripBcast | mapFlat | mapFold | mapRsvd => exact decode_mapRowWord _ _ _ _
  | mapBeat => exact decode_mapRspWord
  | mapBcastNext => exact decode_mapNextWord
  | csrRdCtrl | csrRdMaxPayload | csrRdChkerrCnt | csrRdEvent | csrRdIrqEn | csrRdStatus | csrRdMapMode
  | csrRdPhysWidth | csrRdStripCount | csrRdBrightness | csrRdMatrixWidth | csrRdMatrixHeight | csrRdLastDrop
  | csrRdRsvdD | csrRdRsvdE | csrRdRsvdF => exact decode_csrWord false _ 0
  | csrWrCtrl d | csrWrMaxPayload d | csrWrChkerrCnt d | csrWrEvent d | csrWrIrqEn d | csrWrStatus d | csrWrMapMode d
  | csrWrPhysWidth d | csrWrStripCount d | csrWrBrightness d | csrWrMatrixWidth d | csrWrMatrixHeight d
  | csrWrLastDrop d | csrWrRsvdD d | csrWrRsvdE d | csrWrRsvdF d => exact decode_csrWord true _ d
  | csrIdle => exact decode_csrIdleWord
  | scale v => exact decode_scaleWord v
  | reset => exact decode_rstWord
  | cmdNop | cmdReset | cmdAck | cmdNak | cmdHello | cmdShow | cmdGetInfo | cmdGetPixels | cmdGetControl
  | cmdInfoResponse | cmdPixelResponse | cmdControlResponse | cmdPixelSetAll | cmdPixelSetRange | cmdPixelFrame
  | cmdSetControl | cmdStatusUpdate | cmdFrameAck | cmdInputEvent => exact decode_commandWord _

/-- Settles O2: each literal is the word its format packs, which decodes by that format's table. -/
theorem specSelectorWordsDecode : Obligations.SpecSelectorWordsDecode :=
  ⟨decode_rxWord 0 0xAA false, decode_rxWord 4 0x30 false, decode_rxWord 6 0x4C true, decode_txWord 6 0x05,
    decode_mapRowWord 0 0xFF 7 true, decode_mapRowWord 2 0x00 60 true, decode_csrWord false 5 0,
    decode_csrWord true 7 0x78, decode_commandWord 0x33⟩

/-! ## The receive table (R99) -/

/-- Under the mask 0x700 of a row the state alone is compared. -/
theorem rxSelector_and_stateMask (st : BitVec 3) (b : Byte) (m : BitVec 11) :
    (st ++ b) &&& 0x700#11 = m ↔ st.toNat * 2 ^ 8 = m.toNat := by
  have hMask : (st ++ b) &&& 0x700#11 = st ++ 0#8 := by
    change (st ++ b) &&& (BitVec.allOnes 3 ++ 0#8) = _
    rw [BitVec.and_append, BitVec.and_allOnes, BitVec.and_zero]
  rw [hMask, ← BitVec.toNat_inj, toNat_append_add, BitVec.toNat_zero, Nat.add_zero]

/-- Under the mask 0x7FF of the start byte's row the state and the byte are compared. -/
theorem rxSelector_and_fullMask (st : BitVec 3) (b : Byte) (m : BitVec 11) :
    (st ++ b) &&& 0x7FF#11 = m ↔ st.toNat * 2 ^ 8 + b.toNat = m.toNat := by
  have hMask : (st ++ b) &&& 0x7FF#11 = st ++ b := BitVec.and_allOnes
  rw [hMask, ← BitVec.toNat_inj, toNat_append_add]

/-- The row of the start byte matches in state 0, at the start byte (R99, R115). -/
theorem startRow_matches_iff (st : BitVec 3) (b : Byte) :
    (st ++ b) &&& 0x7FF#11 = 0x0AA#11 ↔ st.toNat = 0 ∧ b = Config.startByte := by
  have hb := b.isLt
  rw [rxSelector_and_fullMask, ← BitVec.toNat_inj]
  change _ = 0xAA ↔ _ ∧ _ = 0xAA
  omega

/-- The first row of R99 that matches is the one the decoder takes: no other state's row matches, and the condition of
the first of two rows with one selector is `rxCondition`. -/
theorem firstMatchingRow_eq (s : State) (b : Byte) :
    firstMatchingRow s (rxStateBits s.rx.state ++ b) b =
      some (decodeRxByte (rxStateBits s.rx.state).toNat b (rxCondition s b)) := by
  have hLength : decide (s.csr.maxPayload.toNat < (b ++ s.rx.len.setWidth 8 : BitVec 16).toNat) =
      exceedsMax s (declaredLength s b) := rfl
  simp only [firstMatchingRow, rxDecodeTable, List.find?_cons, BitVec.ofNat_eq_ofNat, startRow_matches_iff,
    rxSelector_and_stateMask, hLength, rxCondition]
  cases hState : s.rx.state with
  | waitStart => by_cases hStart : b = Config.startByte <;> simp [rxStateBits, decodeRxByte, hStart]
  | readFlags | readLengthLow | unused7 => simp [rxStateBits, decodeRxByte]
  | readLengthHigh => cases hMax : exceedsMax s (declaredLength s b) <;> simp [rxStateBits, decodeRxByte]
  | readCommand => by_cases hEmpty : s.rx.len = 0#16 <;> simp [rxStateBits, decodeRxByte, hEmpty]
  | readPayload =>
    by_cases hLast : s.rx.idx.toNat + 1 = s.rx.len.toNat <;> simp [rxStateBits, decodeRxByte, hLast]
  | readChecksum => by_cases hHolds : b = s.rx.acc <;> simp [rxStateBits, decodeRxByte, hHolds]

/-- Settles O3: the decoder's row is the first that matches (`firstMatchingRow_eq`). -/
theorem rxDecodeFollowsTheFirstMatchingRow : Obligations.RxDecodeFollowsTheFirstMatchingRow :=
  fun s b => ⟨_, firstMatchingRow_eq s b, decode_rxWord _ b _⟩

/-! ## The mapper's rows (R102, R194) -/

/-- The row the decoder reads from the mode, the strip id and `CFG_VALID` does what the request is answered with. -/
theorem exec_decodeMapRow (strip : Byte) (l : Half) (s : State) :
    exec (decodeMapRow (mapModeBits s.csr.mode).toNat strip l (cfgValid s)) s = .next (applyMapRow strip l s) := by
  unfold applyMapRow
  cases cfgValid s with
  | false => rfl
  | true =>
    cases s.csr.mode with
    | strip =>
      change exec (if strip = Config.broadcastStrip then .mapStripBcast l else .mapStrip strip l) s = _
      by_cases hAll : strip = Config.broadcastStrip
      · simp only [if_pos hAll]
        rfl
      · simp only [if_neg hAll]
        rfl
    | flat | folded | reserved => rfl

theorem outsideMapKept_applyMapRow (strip : Byte) (l : Half) (s : State) :
    OutsideMapKept s (applyMapRow strip l s) := by
  rw [applyMapRow_eq]
  exact ⟨rfl, rfl, rfl, rfl, rfl, rfl, rfl⟩

/-- Every request is answered with a beat, and the latched geometry stays (R193, R194). -/
theorem applyMapRow_presents (strip : Byte) (l : Half) (s : State) :
    (applyMapRow strip l s).map.valid = true ∧ (applyMapRow strip l s).map.w = s.map.w ∧
      (applyMapRow strip l s).map.n = s.map.n := by
  rw [applyMapRow_eq]
  exact ⟨rfl, rfl, rfl⟩

/-- Settles O39: the row is run on the state with the latched geometry, whose registers are those the decoder read. -/
theorem mapAcceptAppliesTheDecodedRow : Obligations.MapAcceptAppliesTheDecodedRow := by
  intro s strip l
  have hRow := exec_decodeMapRow strip l (latchGeometry s)
  have hFrame := outsideMapKept_applyMapRow strip l (latchGeometry s)
  obtain ⟨hValid, hW, hN⟩ := applyMapRow_presents strip l (latchGeometry s)
  have hRx : (applyMapRow strip l (latchGeometry s)).rx = s.rx := hFrame.2.1
  exact ⟨_, _, decode_mapRowWord _ strip l _, rfl, hRow, hValid, hW, hN, hFrame, fun _ => by rw [hRx]⟩

/-! ## The wire command codes (R105, R163 to R182) -/

/-- The operations of the wire command codes and their codes (R105, R163 to R181). -/
def wireCommands : List (Instr × Byte) :=
  [(.cmdNop, 0x00), (.cmdReset, 0x01), (.cmdAck, 0x02), (.cmdNak, 0x03), (.cmdHello, 0x04), (.cmdShow, 0x05),
    (.cmdGetInfo, 0x10), (.cmdGetPixels, 0x11), (.cmdGetControl, 0x12), (.cmdInfoResponse, 0x20),
    (.cmdPixelResponse, 0x21), (.cmdControlResponse, 0x22), (.cmdPixelSetAll, 0x30), (.cmdPixelSetRange, 0x31),
    (.cmdPixelFrame, 0x33), (.cmdSetControl, 0x40), (.cmdStatusUpdate, 0x50), (.cmdFrameAck, 0x51),
    (.cmdInputEvent, 0x53)]

theorem decodeCommand_of_mem_wireCommands {i : Instr} {code : Byte} (h : (i, code) ∈ wireCommands) :
    decodeCommand code.toNat = .ok i := by
  have hAll : ∀ c ∈ wireCommands, decodeCommand c.2.toNat = .ok c.1 := by decide
  exact hAll _ h

/-- The codes without a row are those of none of the 19 commands. -/
theorem decodeCommand_error_iff (n : Nat) :
    decodeCommand n = .error .reservedCommand ↔ n ∉ wireCommands.map fun c => c.2.toNat := by
  unfold decodeCommand
  split
  case h_20 => simp_all [wireCommands]
  all_goals simp [wireCommands]

/-- Settles O4: between the 19 codes lie the ranges of R182. -/
theorem reservedCommandCodesHaveNoRow : Obligations.ReservedCommandCodesHaveNoRow := by
  intro code
  rw [decode_commandWord, decodeCommand_error_iff]
  simp only [wireCommands, List.map_cons, List.map_nil, List.mem_cons, List.not_mem_nil, or_false,
    BitVec.le_def, ← BitVec.toNat_inj, BitVec.ofNat_eq_ofNat, BitVec.toNat_ofNat]
  omega

/-- The framer that takes a command byte writes its own registers only (R121, R122). -/
theorem carryCommand_eq (code : Byte) (s : State) :
    carryCommand code s = s.setRx (if s.rx.len = 0 then
        { s.rx with idle := 0, cmd := code, acc := s.rx.acc ^^^ code, state := .readChecksum }
      else { s.rx with idle := 0, cmd := code, acc := s.rx.acc ^^^ code, idx := 0, state := .readPayload }) := by
  by_cases hEmpty : s.rx.len = 0
  · rw [carryCommand_empty code s hEmpty, if_pos hEmpty, commandNoPayload]
  · rw [carryCommand_payload code s hEmpty, if_neg hEmpty, commandWithPayload]

theorem outsideRxKept_setRx (s : State) (r : RxUnit) : OutsideRxKept s (s.setRx r) :=
  ⟨rfl, rfl, rfl, rfl, rfl, rfl, rfl, rfl⟩

theorem rxbufKept_carryCommand (code : Byte) (s : State) : RxbufKept s (carryCommand code s) :=
  keptOutside_carryCommand code s .rxbuf (by simp [commandElements])

/-- Whatever operation a command code decodes to, it carries that code (R161). -/
theorem exec_of_decodeCommand {n : Nat} {i : Instr} (h : decodeCommand n = .ok i) (s : State) :
    exec i s = .next (carryCommand (BitVec.ofNat 8 n) s) := by
  unfold decodeCommand at h
  split at h <;> cases h <;> rfl

/-- Settles O34: the codes decode by R105, and an operation decoded from a code carries it (`exec_of_decodeCommand`). -/
theorem wireCommandsAreCarried : Obligations.WireCommandsAreCarried := by
  intro s i code hMem
  have hDecode : decodeCommand code.toNat = .ok i := decodeCommand_of_mem_wireCommands hMem
  have hExec : exec i s = .next (carryCommand code s) := by
    rw [exec_of_decodeCommand hDecode, BitVec.ofNat_toNat, BitVec.setWidth_eq]
  refine ⟨(decode_commandWord code).trans hDecode, _, hExec, ?_, rxbufKept_carryCommand code s, ?_⟩
  · rw [carryCommand_eq]
    exact outsideRxKept_setRx s _
  · rw [carryCommand_eq, State.setRx_rx]

end Sys2Proof.Machine
end


section
/-! PROOFS of the statements of spec/40_rx_framer.md: what each operation of the framer does (R113 to R130). -/

namespace Sys2Proof.Machine

/-! ## Frames of the framer's updates -/

theorem outsideRxEventKept_setRx_setEvent (s : State) (r : RxUnit) (e : BitVec 5) :
    OutsideRxEventKept s ((s.setRx r).setEvent e) :=
  ⟨rfl, rfl, rfl, rfl, rfl, rfl, rfl⟩

theorem rxbufKept_refl (s : State) : RxbufKept s s := fun _ => rfl

/-! ## The bytes of a packet (R115 to R127) -/

theorem waitByte_eq (b : Byte) (s : State) :
    waitByte b s = s.setRx
      (if b = Config.startByte then { s.rx with idle := 0, acc := 0, state := .readFlags }
      else { s.rx with idle := 0 }) := by
  by_cases hStart : b = Config.startByte
  · rw [hStart, waitByte_start, if_pos rfl, startPacket]
  · rw [waitByte_other s hStart, if_neg hStart, acceptByte]

theorem lowHalf_eq_extractLsb' (v : Half) : lowHalf v = v.extractLsb' 0 8 :=
  BitVec.setWidth_eq_extractLsb' (by decide)

theorem declaredLength_eq (s : State) (b : Byte) : declaredLength s b = b ++ s.rx.len.extractLsb' 0 8 := by
  rw [declaredLength, lowHalf_eq_extractLsb', lengthOf]

theorem zext16_eq_append (b : Byte) : zext16 b = (0 : Byte) ++ b := by
  apply BitVec.eq_of_toNat_eq
  rw [toNat_append_add, zext16, BitVec.toNat_setWidth]
  have hb := b.isLt
  simp only [BitVec.ofNat_eq_ofNat, BitVec.toNat_ofNat]
  omega

/-- Settles O26: the three operations are updates of the framer alone. -/
theorem rxWaitBytesComplete : Obligations.RxWaitBytesComplete := by
  intro s b
  refine ⟨⟨_, rfl, rfl, outsideRxKept_setRx s _, rxbufKept_refl s⟩,
    ⟨_, rfl, rfl, outsideRxKept_setRx s _, rxbufKept_refl s⟩, ⟨waitByte b s, rfl, ?_, ?_, ?_⟩⟩
  · rw [waitByte_eq]
    rfl
  · rw [waitByte_eq]
    exact outsideRxKept_setRx s _
  · exact keptOutside_waitByte b s .rxbuf (by simp)

/-- Settles O27: the length is `zext16` of its first byte, then that byte with the second above it. -/
theorem rxHeaderBytesComplete : Obligations.RxHeaderBytesComplete := by
  intro s b
  refine ⟨⟨_, rfl, rfl, outsideRxKept_setRx s _, rxbufKept_refl s⟩,
    ⟨_, rfl, ?_, outsideRxKept_setRx s _, rxbufKept_refl s⟩, ⟨_, rfl, ?_, outsideRxKept_setRx s _, rxbufKept_refl s⟩⟩
  · rw [State.setRx_rx, zext16_eq_append]
  · rw [State.setRx_rx, declaredLength_eq]

/-- Settles O28: the three operations are updates of the framer alone. -/
theorem rxCommandAndChecksumBytesComplete : Obligations.RxCommandAndChecksumBytesComplete := fun s _ =>
  ⟨⟨_, rfl, rfl, outsideRxKept_setRx s _, rxbufKept_refl s⟩,
    ⟨_, rfl, rfl, outsideRxKept_setRx s _, rxbufKept_refl s⟩,
    ⟨_, rfl, rfl, outsideRxKept_setRx s _, rxbufKept_refl s⟩⟩

/-- A payload byte at an index that exists, whatever the next state of its row (R123, R124). -/
theorem storePayload_completes {s : State} (b : Byte) (next : RxState) (hIdx : s.rx.idx.toNat < s.cfg.rxbufCap) :
    ∃ t, storePayload b next s = .next t ∧
      t.rx = { s.rx with
        idle := 0, acc := s.rx.acc ^^^ b, idx := s.rx.idx + 1, buf := t.rx.buf, state := next } ∧
      Memory.read t.rx.buf s.rx.idx.toNat = b ∧ RxbufKeptBut s.rx.idx.toNat s t ∧ OutsideRxKept s t :=
  ⟨_, storePayload_inRange b next s hIdx, rfl, Memory.read_write_same _ _ _,
    fun _ hk => Memory.read_write_other _ _ hk, outsideRxKept_setRx s _⟩

/-- Settles O29: both rows store the byte, and differ in the next state only. -/
theorem rxPayloadBytesComplete : Obligations.RxPayloadBytesComplete := fun s b hIdx =>
  ⟨storePayload_completes b s.rx.state hIdx, storePayload_completes b .readChecksum hIdx⟩

/-! ## Drops, ticks and the packet's reader (R113, R114, R129, R130, R262) -/

/-- A drop after its row's own update `r` of the framer (R262, R268). -/
theorem raiseDrop_completes (code : Byte) {s : State} {r : RxUnit} (hBuf : r.buf = s.rx.buf) :
    ∃ t, (.next (raiseDrop code (s.setRx r)) : Result) = .next t ∧
      t.rx = { r with state := .waitStart, lastDrop := code } ∧ t.event = s.event ||| dropBit code ∧
      OutsideRxEventKept s t ∧ RxbufKept s t := by
  refine ⟨_, congrArg Host.Outcome.next (raiseDrop_eq _ _), rfl, rfl, outsideRxEventKept_setRx_setEvent s _ _, ?_⟩
  exact fun a => congrArg (Memory.read · a) hBuf

/-- Settles O31: each row is `raiseDrop` of its code after the row's own update. -/
theorem rxDropsComplete : Obligations.RxDropsComplete := by
  intro s b
  refine ⟨raiseDrop_completes Config.errChecksum rfl, ?_, raiseDrop_completes Config.errTimeout (r := s.rx) rfl⟩
  rw [← declaredLength_eq]
  exact raiseDrop_completes Config.errBufferOverflow rfl

theorem timeoutRuns_iff (r : RxState) : timeoutRuns r = true ↔ r ≠ .waitStart ∧ r ≠ .unused7 := by
  cases r <;> simp [timeoutRuns]

theorem tickExpires_iff (s : State) :
    tickExpires s = true ↔ s.rx.state ≠ .waitStart ∧ s.rx.state ≠ .unused7 ∧ s.rx.idle + 1 > s.cfg.timeoutTicks := by
  rw [tickExpires, Bool.and_eq_true, timeoutRuns_iff, decide_eq_true_eq, and_assoc]

/-- Settles O32: the condition of the rule is `tickExpires`; a tick that does not expire counts only. -/
theorem rxTickCounts : Obligations.RxTickCounts := by
  intro s
  simp only [← tickExpires_iff]
  by_cases hExpires : tickExpires s = true
  · refine ⟨raiseDrop Config.errTimeout (countTick s), congrArg _ (if_pos hExpires), ?_⟩
    rw [raiseDrop_eq, if_pos hExpires]
    exact ⟨outsideRxEventKept_setRx_setEvent s _ _, rxbufKept_refl s, rfl, rfl⟩
  · refine ⟨countTick s, congrArg _ (if_neg hExpires), ?_⟩
    rw [if_neg hExpires]
    exact ⟨outsideRxEventKept_setRx_setEvent s _ s.event, rxbufKept_refl s, rfl, rfl⟩

theorem exec_pktAck_eq (s : State) : exec .pktAck s = .next (s.setRx { s.rx with pending := false }) := by
  change Host.Outcome.next (if s.rx.pending then _ else s) = _
  cases hPending : s.rx.pending with
  | true => rfl
  | false =>
    rw [if_neg nofun, ← hPending]
    rfl

/-- Settles O33: without a pending packet the acknowledge writes the value that stands there. -/
theorem ackAndPayloadReadComplete : Obligations.AckAndPayloadReadComplete := fun s _ =>
  ⟨⟨_, exec_pktAck_eq s, rfl, outsideRxKept_setRx s _, rxbufKept_refl s⟩,
    ⟨_, rfl, rfl, outsideRxKept_setRx s _, rxbufKept_refl s⟩⟩

end Sys2Proof.Machine
end

section
/-! PROOFS of the statements of spec/40_rx_framer.md: every cycle keeps the invariants (R131). What a byte does to the
framer is said once for each receive state; each invariant is then a case split over the states. -/

namespace Sys2Proof.Machine

/-! ## The framer after a byte, state by state (R115 to R127) -/

section AfterByte

variable {s : State} {i : Inputs}

theorem rxAfter_waitStart (hFire : fireRx s i = true) (hState : s.rx.state = .waitStart) :
    rxAfter s i =
      if i.rxData = Config.startByte then { rxReadAcked s i with idle := 0, acc := 0, state := .readFlags }
      else { rxReadAcked s i with idle := 0 } := by
  rw [rxAfter_of_byte hFire]
  by_cases hStart : i.rxData = Config.startByte <;>
    simp [hState, hStart, rxStateAfterByte, entersXor, timeoutRuns, rxReadAcked, pending_of_fireRx hFire]

theorem rxAfter_readFlags (hFire : fireRx s i = true) (hState : s.rx.state = .readFlags) :
    rxAfter s i =
      { rxReadAcked s i with
        idle := 0, flags := i.rxData, acc := s.rx.acc ^^^ i.rxData, state := .readLengthLow } := by
  rw [rxAfter_of_byte hFire]
  simp [hState, rxStateAfterByte, entersXor, timeoutRuns, rxReadAcked, pending_of_fireRx hFire]

theorem rxAfter_readLengthLow (hFire : fireRx s i = true) (hState : s.rx.state = .readLengthLow) :
    rxAfter s i =
      { rxReadAcked s i with
        idle := 0, len := zext16 i.rxData, acc := s.rx.acc ^^^ i.rxData, state := .readLengthHigh } := by
  rw [rxAfter_of_byte hFire]
  simp [hState, rxStateAfterByte, entersXor, timeoutRuns, rxReadAcked, pending_of_fireRx hFire]

theorem rxAfter_readLengthHigh (hFire : fireRx s i = true) (hState : s.rx.state = .readLengthHigh) :
    rxAfter s i =
      if exceedsMax s (declaredLength s i.rxData) then
        { rxReadAcked s i with
          idle := 0, len := declaredLength s i.rxData, lastDrop := Config.errBufferOverflow, state := .waitStart }
      else
        { rxReadAcked s i with
          idle := 0, len := declaredLength s i.rxData, acc := s.rx.acc ^^^ i.rxData, state := .readCommand } := by
  rw [rxAfter_of_byte hFire]
  cases hMax : exceedsMax s (declaredLength s i.rxData) <;>
    simp [hState, hMax, rxStateAfterByte, entersXor, timeoutRuns, rxReadAcked, pending_of_fireRx hFire]

theorem rxAfter_readCommand (hFire : fireRx s i = true) (hState : s.rx.state = .readCommand) :
    rxAfter s i =
      if s.rx.len = 0 then
        { rxReadAcked s i with
          idle := 0, cmd := i.rxData, acc := s.rx.acc ^^^ i.rxData, state := .readChecksum }
      else
        { rxReadAcked s i with
          idle := 0, cmd := i.rxData, acc := s.rx.acc ^^^ i.rxData, idx := 0, state := .readPayload } := by
  rw [rxAfter_of_byte hFire]
  by_cases hEmpty : s.rx.len = 0#16 <;>
    simp [hState, hEmpty, rxStateAfterByte, entersXor, timeoutRuns, rxReadAcked, pending_of_fireRx hFire]

theorem rxAfter_readPayload (hFire : fireRx s i = true) (hState : s.rx.state = .readPayload) :
    rxAfter s i = (rxReadAcked s i).stored i.rxData
      (if s.rx.idx.toNat + 1 = s.rx.len.toNat then .readChecksum else .readPayload) := by
  rw [rxAfter_of_byte hFire]
  simp [hState, rxStateAfterByte, entersXor, timeoutRuns, rxReadAcked, RxUnit.stored, pending_of_fireRx hFire]

theorem rxAfter_readChecksum (hFire : fireRx s i = true) (hState : s.rx.state = .readChecksum) :
    rxAfter s i =
      if i.rxData = s.rx.acc then
        { rxReadAcked s i with idle := 0, chk := i.rxData, pending := true, state := .waitStart }
      else
        { rxReadAcked s i with
          idle := 0, chkErr := s.rx.chkErr + 1, lastDrop := Config.errChecksum, state := .waitStart } := by
  rw [rxAfter_of_byte hFire]
  by_cases hHolds : i.rxData = s.rx.acc <;>
    simp [hState, hHolds, rxStateAfterByte, entersXor, timeoutRuns, rxReadAcked, pending_of_fireRx hFire]

/-- Without a byte only the reader, the idle counter and the timeout act (R113, R129, R130). -/
theorem rxAfter_of_no_byte (hFire : fireRx s i = false) :
    rxAfter s i =
      { rxReadAcked s i with
        idle := if i.tick then min (s.rx.idle + 1) (s.cfg.timeoutTicks + 1) else s.rx.idle
        state := if timesOut s i then .waitStart else s.rx.state
        lastDrop := if timesOut s i then Config.errTimeout else s.rx.lastDrop } := by
  simp [rxAfter, rxReadAcked, hFire, checksumFails, oversize, checksumHolds, takesPayload, opensPacket]

end AfterByte

/-! ## `RXBUF` and `MAX_PAYLOAD` (R30, R71, R225) -/

theorem exceedsMax_eq_false_iff (s : State) (n : Half) :
    exceedsMax s n = false ↔ n.toNat ≤ s.csr.maxPayload.toNat := by
  simp [exceedsMax]

/-- The clamped value of `MAX_PAYLOAD` fits the register: `RXBUF_CAP` is at most 1024 (R9). -/
theorem toNat_ofNat_of_le_cap {p : Params} {n : Nat} (hParams : LegalParams p) (h : n ≤ p.rxbufCap) :
    (BitVec.ofNat 11 n).toNat = n := by
  have hCap := hParams.capLimit
  simp only [Config.maxPayloadLimit] at hCap
  rw [BitVec.toNat_ofNat, Nat.mod_eq_of_lt (by omega)]

theorem maxPayloadOk_ordinaryAfter {s : State} (i : Inputs) (hParams : LegalParams s.cfg) (h : MaxPayloadOk s) :
    MaxPayloadOk (ordinaryAfter s i) := by
  unfold MaxPayloadOk
  change (csrAfter s i).maxPayload.toNat ≤ s.cfg.rxbufCap
  simp only [csrAfter]
  split
  · rw [toNat_ofNat_of_le_cap hParams (Nat.min_le_right _ _)]
    exact Nat.min_le_right _ _
  · exact h

theorem rxbufOk_ordinaryAfter {s : State} {i : Inputs} (h : RxbufOk s)
    (hIdx : takesPayload s i = true → s.rx.idx.toNat < s.cfg.rxbufCap) : RxbufOk (ordinaryAfter s i) := by
  have hBuf : (ordinaryAfter s i).rx.buf = (rxAfter s i).buf := rfl
  have hCfg : (ordinaryAfter s i).cfg = s.cfg := rfl
  cases hTakes : takesPayload s i with
  | false =>
    rw [rxAfter_buf_of_no_payload hTakes] at hBuf
    exact ⟨hBuf ▸ h.canonical, hBuf ▸ h.inRange⟩
  | true =>
    rw [rxAfter_buf_of_payload hTakes] at hBuf
    refine ⟨by rw [hBuf]; exact Memory.wf_write _ _ _ h.canonical, fun a ha => ?_⟩
    rw [hCfg] at ha
    have hOther : a ≠ s.rx.idx.toNat := Nat.ne_of_gt (Nat.lt_of_lt_of_le (hIdx hTakes) ha)
    rw [hBuf, Memory.find_write_other _ _ hOther]
    exact h.inRange a ha

/-! ## The framer (R131 (a) to (e)) -/

/-- A payload index below a length that `RXBUF` holds does not wrap when it counts (R27). -/
theorem toNat_idx_succ {idx : BitVec 11} (h : idx.toNat < Config.maxPayloadLimit) :
    (idx + 1).toNat = idx.toNat + 1 := by
  simp only [Config.maxPayloadLimit] at h
  bv_omega

/-- The code 7 is entered by no rule (R127). -/
theorem rxStateAfterByte_used {s : State} (b : Byte) (h : s.rx.state ≠ .unused7) :
    rxStateAfterByte s b ≠ .unused7 := by
  cases hState : s.rx.state with
  | unused7 => exact absurd hState h
  | readFlags | readLengthLow | readChecksum => simp [rxStateAfterByte, hState]
  | waitStart | readLengthHigh | readCommand | readPayload =>
    simp only [rxStateAfterByte, hState]
    split <;> simp

/-- The length is checked by its second byte, or was before (R119, R120). -/
theorem lengthChecked_afterByte {s : State} {b : Byte} (h : lengthChecked (rxStateAfterByte s b) = true) :
    (s.rx.state = .readLengthHigh ∧ exceedsMax s (declaredLength s b) = false) ∨ lengthChecked s.rx.state = true := by
  cases hState : s.rx.state with
  | readCommand | readPayload | readChecksum => exact .inr rfl
  | readLengthHigh =>
    simp only [rxStateAfterByte, hState] at h
    cases hMax : exceedsMax s (declaredLength s b) with
    | true => simp [hMax, lengthChecked] at h
    | false => exact .inl ⟨rfl, rfl⟩
  | waitStart | unused7 =>
    simp only [rxStateAfterByte, hState] at h
    split at h <;> cases h
  | readFlags | readLengthLow =>
    simp only [rxStateAfterByte, hState] at h
    cases h

/-- A payload byte is due after the command byte of a packet with a payload, or after one that is not the last. -/
theorem readPayload_afterByte {s : State} {b : Byte} (h : rxStateAfterByte s b = .readPayload) :
    (s.rx.state = .readCommand ∧ s.rx.len ≠ 0) ∨
      (s.rx.state = .readPayload ∧ s.rx.idx.toNat + 1 ≠ s.rx.len.toNat) := by
  cases hState : s.rx.state with
  | readCommand =>
    simp only [rxStateAfterByte, hState] at h
    split at h
    · cases h
    · exact .inl ⟨rfl, ‹_›⟩
  | readPayload =>
    simp only [rxStateAfterByte, hState] at h
    split at h
    · cases h
    · exact .inr ⟨rfl, ‹_›⟩
  | waitStart | unused7 | readLengthHigh =>
    simp only [rxStateAfterByte, hState] at h
    split at h <;> cases h
  | readFlags | readLengthLow | readChecksum =>
    simp only [rxStateAfterByte, hState] at h
    cases h

section FramerInvariant

variable {s : State} {i : Inputs}

theorem rxAfter_state_used (hUsed : s.rx.state ≠ .unused7) : (rxAfter s i).state ≠ .unused7 := by
  simp only [rxAfter]
  split
  · exact rxStateAfterByte_used _ hUsed
  · split
    · nofun
    · exact hUsed

theorem rxAfter_idle_le (hIdle : s.rx.idle ≤ s.cfg.timeoutTicks + 1) :
    (rxAfter s i).idle ≤ s.cfg.timeoutTicks + 1 := by
  simp only [rxAfter]
  split
  · exact Nat.zero_le _
  · split
    · exact Nat.min_le_right _ _
    · exact hIdle

/-- In the middle of a packet the tick that would pass the limit drops it (R113). -/
theorem rxAfter_idle_running (h : RxInv s) (hRunning : (rxAfter s i).state ≠ .waitStart) :
    (rxAfter s i).idle ≤ s.cfg.timeoutTicks := by
  cases hFire : fireRx s i with
  | true => simp [rxAfter, hFire]
  | false =>
    rw [rxAfter_of_no_byte hFire] at hRunning ⊢
    cases hOut : timesOut s i with
    | true => simp [hOut] at hRunning
    | false =>
      simp only [hOut, Bool.false_eq_true, if_false] at hRunning ⊢
      have hRuns : timeoutRuns s.rx.state = true := (timeoutRuns_iff _).mpr ⟨hRunning, h.stateUsed⟩
      split
      · rename_i hTick
        simp only [timesOut, hFire, hTick, hRuns, Bool.not_false, Bool.and_self, Bool.true_and,
          decide_eq_false_iff_not] at hOut
        omega
      · exact h.idleRunning hRunning

theorem rxAfter_len_checked (hMax : MaxPayloadOk s) (h : RxInv s)
    (hChecked : lengthChecked (rxAfter s i).state = true) : (rxAfter s i).len.toNat ≤ s.cfg.rxbufCap := by
  cases hFire : fireRx s i with
  | false =>
    rw [rxAfter_of_no_byte hFire] at hChecked ⊢
    cases hOut : timesOut s i with
    | true => simp [hOut, lengthChecked] at hChecked
    | false => exact h.lenChecked (by simpa [hOut] using hChecked)
  | true =>
    rw [rxAfter_of_byte hFire] at hChecked ⊢
    rcases lengthChecked_afterByte hChecked with ⟨hState, hFits⟩ | hBefore
    · simp only [hState, reduceCtorEq, if_false, if_true]
      exact Nat.le_trans ((exceedsMax_eq_false_iff _ _).mp hFits) hMax
    · have hLow : s.rx.state ≠ .readLengthLow := by rintro hState; simp [hState, lengthChecked] at hBefore
      have hHigh : s.rx.state ≠ .readLengthHigh := by rintro hState; simp [hState, lengthChecked] at hBefore
      simp only [hLow, hHigh, if_false]
      exact h.lenChecked hBefore

theorem idx_lt_limit (hParams : LegalParams s.cfg) (h : RxInv s) (hState : s.rx.state = .readPayload) :
    s.rx.idx.toNat < s.rx.len.toNat ∧ s.rx.idx.toNat < Config.maxPayloadLimit := by
  have hInside := h.idxInside hState
  have hLen := h.lenChecked (by rw [hState]; rfl)
  have hCap := hParams.capLimit
  omega

theorem rxAfter_idx_inside (hParams : LegalParams s.cfg) (h : RxInv s) (hState : (rxAfter s i).state = .readPayload) :
    (rxAfter s i).idx.toNat < (rxAfter s i).len.toNat := by
  cases hFire : fireRx s i with
  | false =>
    rw [rxAfter_of_no_byte hFire] at hState ⊢
    cases hOut : timesOut s i with
    | true => simp [hOut] at hState
    | false => exact h.idxInside (by simpa [hOut] using hState)
  | true =>
    have hNext : rxStateAfterByte s i.rxData = .readPayload := by rwa [rxAfter_of_byte hFire] at hState
    rcases readPayload_afterByte hNext with ⟨hBefore, hLen⟩ | ⟨hBefore, hNotLast⟩
    · rw [rxAfter_readCommand hFire hBefore, if_neg hLen]
      exact Nat.pos_of_ne_zero fun hZero => hLen (BitVec.eq_of_toNat_eq hZero)
    · obtain ⟨hInside, hLimit⟩ := idx_lt_limit hParams h hBefore
      rw [rxAfter_readPayload hFire hBefore]
      change (s.rx.idx + 1).toNat < s.rx.len.toNat
      rw [toNat_idx_succ hLimit]
      omega

theorem rxAfter_idx_le (hParams : LegalParams s.cfg) (h : RxInv s) :
    (rxAfter s i).idx.toNat ≤ Config.maxPayloadLimit := by
  simp only [rxAfter]
  split
  · exact Nat.zero_le _
  · split
    · rename_i hTakes
      obtain ⟨-, hState⟩ := (takesPayload_iff s i).mp hTakes
      obtain ⟨-, hLimit⟩ := idx_lt_limit hParams h hState
      rw [toNat_idx_succ hLimit]
      exact hLimit
    · exact h.idxBound

/-- A packet becomes pending as its checksum byte brings the framer to `WaitStart`, and no byte is accepted while it
pends (R111, R125). -/
theorem rxAfter_pending_waits (h : RxInv s) (hPending : (rxAfter s i).pending = true) :
    (rxAfter s i).state = .waitStart ∧ (rxAfter s i).len.toNat ≤ s.cfg.rxbufCap := by
  cases hFire : fireRx s i with
  | false =>
    rw [rxAfter_of_no_byte hFire] at hPending ⊢
    obtain ⟨hBefore, -⟩ := (Bool.and_eq_true _ _).mp hPending
    obtain ⟨hState, hLen⟩ := h.pendingWaits hBefore
    exact ⟨by simp [hState], hLen⟩
  | true =>
    have hHolds : s.rx.state = .readChecksum ∧ i.rxData = s.rx.acc := by
      rw [rxAfter_of_byte hFire] at hPending
      exact of_decide_eq_true hPending
    obtain ⟨hState, hChk⟩ := hHolds
    rw [rxAfter_readChecksum hFire hState, if_pos hChk]
    exact ⟨rfl, h.lenChecked (by rw [hState]; rfl)⟩

theorem rxAfter_drop_code (h : RxInv s) :
    (rxAfter s i).lastDrop = 0 ∨ (rxAfter s i).lastDrop = Config.errChecksum ∨
      (rxAfter s i).lastDrop = Config.errBufferOverflow ∨ (rxAfter s i).lastDrop = Config.errTimeout := by
  simp only [rxAfter]
  split
  · exact .inr (.inl rfl)
  · split
    · exact .inr (.inr (.inl rfl))
    · split
      · exact .inr (.inr (.inr rfl))
      · exact h.dropCode

theorem rxInv_ordinaryAfter (hParams : LegalParams s.cfg) (hMax : MaxPayloadOk s) (h : RxInv s) :
    RxInv (ordinaryAfter s i) where
  stateUsed := rxAfter_state_used h.stateUsed
  idleBound := rxAfter_idle_le h.idleBound
  idleRunning := rxAfter_idle_running h
  lenChecked := rxAfter_len_checked hMax h
  idxInside := rxAfter_idx_inside hParams h
  idxBound := rxAfter_idx_le hParams h
  pendingWaits := rxAfter_pending_waits h
  dropCode := rxAfter_drop_code h

end FramerInvariant

/-! ## The encoder (R142, R151) -/

/-- After a byte of the encoder one more payload byte is due only if the count is still below the length. -/
theorem txAfterByte_payload {s : State} (h : txStateAfterByte s = .payload) :
    (s.tx.state = .cmd ∧ s.tx.len ≠ 0) ∨ (s.tx.state = .payload ∧ s.tx.cnt.toNat + 1 ≠ s.tx.len.toNat) := by
  cases hState : s.tx.state with
  | cmd =>
    simp only [txStateAfterByte, hState] at h
    split at h
    · cases h
    · exact .inl ⟨rfl, ‹_›⟩
  | payload =>
    simp only [txStateAfterByte, hState] at h
    split at h
    · cases h
    · exact .inr ⟨rfl, ‹_›⟩
  | idle | start | flags | lenLo | lenHi | chk =>
    simp only [txStateAfterByte, hState] at h
    cases h

/-- What the encoder does in a cycle: it accepts a request, sends a byte, or holds (R141). -/
theorem txAfter_cases (s : State) (i : Inputs) :
    (acceptsRequest s i = true ∧ (txAfter s i).state = .start ∧ (txAfter s i).len = i.txReqLen) ∨
      (s.tx.state ≠ .idle ∧ (txAfter s i).state = txStateAfterByte s ∧ (txAfter s i).len = s.tx.len ∧
        (txAfter s i).cnt =
          if s.tx.state = .payload then s.tx.cnt + 1
          else if s.tx.state = .cmd ∧ s.tx.len ≠ 0 then 0
          else s.tx.cnt) ∨
      txAfter s i = s.tx := by
  unfold txAfter
  split
  · exact .inl ⟨‹_›, rfl, rfl⟩
  · split
    · exact .inr (.inl ⟨fireTx_notIdle ‹_›, rfl, rfl, rfl⟩)
    · exact .inr (.inr rfl)

theorem txInv_ordinaryAfter {s : State} {i : Inputs} (hParams : LegalParams s.cfg) (hMax : MaxPayloadOk s)
    (h : TxInv s) : TxInv (ordinaryAfter s i) := by
  have hTx : (ordinaryAfter s i).tx = txAfter s i := rfl
  have hCfg : (ordinaryAfter s i).cfg = s.cfg := rfl
  have hCap := hParams.capLimit
  rcases txAfter_cases s i with ⟨hAccepts, hState, hLen⟩ | ⟨hBusy, hState, hLen, hCnt⟩ | hKept
  · have hFits : exceedsMax s i.txReqLen = false := by
      rw [acceptsRequest, Bool.and_eq_true, Bool.not_eq_true'] at hAccepts
      exact hAccepts.2
    constructor
    · intro _
      rw [hTx, hCfg, hLen]
      exact Nat.le_trans ((exceedsMax_eq_false_iff _ _).mp hFits) hMax
    · intro hPayload
      rw [hTx, hState] at hPayload
      cases hPayload
  · have hChecked := h.lenChecked hBusy
    constructor
    · intro _
      rw [hTx, hCfg, hLen]
      exact hChecked
    · intro hPayload
      rw [hTx, hState] at hPayload
      rw [hTx, hLen, hCnt]
      rcases txAfterByte_payload hPayload with ⟨hBefore, hNonempty⟩ | ⟨hBefore, hNotLast⟩
      · rw [if_neg (by rw [hBefore]; nofun), if_pos ⟨hBefore, hNonempty⟩]
        exact Nat.pos_of_ne_zero fun hZero => hNonempty (BitVec.eq_of_toNat_eq hZero)
      · have hInside := h.cntInside hBefore
        rw [if_pos hBefore, toNat_idx_succ (by omega)]
        omega
  · rw [← hTx] at hKept
    exact ⟨hKept ▸ h.lenChecked, hKept ▸ h.cntInside⟩

/-! ## The mapper (R197, R198, R203) -/

/-- The first beat of a request: an error, the only beat, or the first of a broadcast to several strips. -/
theorem mapBeatOf_cases (mode : MapMode) (w n : Nat) (strip : Byte) (l : Nat) :
    (∃ code, (code = Config.errInvalidParam ∨ code = Config.errConfig) ∧
        mapBeatOf mode w n strip l = Beat.error code) ∨
      ((mapBeatOf mode w n strip l).err = Config.errOk ∧ (mapBeatOf mode w n strip l).last = true) ∨
      (geometryValid mode w n = true ∧ 1 < n ∧ l < w ∧
        mapBeatOf mode w n strip l = { Beat.pixel w 0 l with last := false }) := by
  unfold mapBeatOf
  split
  case isFalse => exact .inl ⟨_, .inr rfl, rfl⟩
  case isTrue hValid =>
    cases mode with
    | reserved => exact .inl ⟨_, .inr rfl, rfl⟩
    | flat | folded =>
      simp only
      split
      · exact .inr (.inl ⟨rfl, rfl⟩)
      · exact .inl ⟨_, .inl rfl, rfl⟩
    | strip =>
      simp only
      split
      · split
        case isFalse => exact .inl ⟨_, .inl rfl, rfl⟩
        case isTrue hl =>
          have hn : 1 ≤ n := (of_decide_eq_true hValid).1
          by_cases hOne : n = 1
          · exact .inr (.inl ⟨rfl, decide_eq_true hOne⟩)
          · exact .inr (.inr ⟨hValid, by omega, hl, by rw [decide_eq_false hOne]⟩)
      · split
        · exact .inr (.inl ⟨rfl, rfl⟩)
        · exact .inl ⟨_, .inl rfl, rfl⟩

theorem mapInv_of_request {s t : State} {i : Inputs}
    (hMap : t.map = MapUnit.load { s.map with w := s.csr.physWidth, n := s.csr.stripCount } (requestedBeat s i)) :
    MapInv t := by
  unfold requestedBeat at hMap
  rcases mapBeatOf_cases s.csr.mode (widthOf s) (stripsOf s) i.mapReqStrip i.mapReqIndex.toNat with
    ⟨code, hCode, hBeat⟩ | ⟨hErr, hLast⟩ | ⟨hValid, hMany, hPos, hBeat⟩
  · rw [hBeat] at hMap
    exact ⟨.inr (by rw [hMap]; exact hCode), fun _ => by rw [hMap]; exact ⟨rfl, rfl, rfl, rfl⟩,
      fun _ hMore => by rw [hMap] at hMore; cases hMore⟩
  · have hErr' : t.map.err = 0 := by rw [hMap]; exact hErr
    have hLast' : t.map.last = true := by rw [hMap]; exact hLast
    exact ⟨.inl hErr', fun hNe => absurd hErr' hNe, fun _ hMore => by rw [hLast'] at hMore; cases hMore⟩
  · rw [hBeat] at hMap
    have hErr' : t.map.err = 0 := by rw [hMap]; rfl
    refine ⟨.inl hErr', fun hNe => absurd hErr' hNe, fun _ _ => ?_⟩
    obtain ⟨hStrip, hPos', hAddr⟩ := load_pixel_toNat { s.map with w := s.csr.physWidth, n := s.csr.stripCount } false
      hValid (Nat.lt_trans Nat.zero_lt_one hMany) hPos
    obtain ⟨hStrips, hPixels⟩ := geometryValid_bounds hValid
    rw [hMap, hStrip, hPos', hAddr]
    exact ⟨hMany, hStrips, hPixels, hPos, rfl⟩

/-- The next beat of a broadcast fits the beat registers: the same position on the next strip, still inside the latched
geometry (R12, R198). -/
theorem load_continuation_toNat {m : MapUnit} (hStrip : m.strip.toNat + 1 < m.n.toNat)
    (hStrips : m.n.toNat ≤ Config.maxStrips) (hPixels : m.n.toNat * m.w.toNat ≤ Config.maxPixels)
    (hPos : m.pos.toNat < m.w.toNat) (hAddr : m.addr.toNat = m.strip.toNat * m.w.toNat + m.pos.toNat) :
    (m.load (continuationBeat m)).strip.toNat = m.strip.toNat + 1 ∧
      (m.load (continuationBeat m)).pos.toNat = m.pos.toNat ∧
      (m.load (continuationBeat m)).addr.toNat = (m.strip.toNat + 1) * m.w.toNat + m.pos.toNat := by
  have hInside : (m.strip.toNat + 1) * m.w.toNat + m.pos.toNat < m.n.toNat * m.w.toNat := pixelIndex_lt hStrip hPos
  have hNext : m.addr.toNat + m.w.toNat = (m.strip.toNat + 1) * m.w.toNat + m.pos.toNat := by
    rw [hAddr, Nat.succ_mul, Nat.add_right_comm]
  simp only [Config.maxStrips, Config.maxPixels] at hStrips hPixels
  simp only [MapUnit.load, continuationBeat, BitVec.toNat_ofNat, hNext]
  exact ⟨Nat.mod_eq_of_lt (by omega), Nat.mod_eq_of_lt m.pos.isLt, Nat.mod_eq_of_lt (by omega)⟩

theorem mapInv_of_continuation {s t : State} (h : MapInv s) (hValid : s.map.valid = true) (hLast : s.map.last = false)
    (hMap : t.map = s.map.load (continuationBeat s.map)) : MapInv t := by
  obtain ⟨hStrip, hStrips, hPixels, hPos, hAddr⟩ := h.broadcast hValid hLast
  obtain ⟨hStrip', hPos', hAddr'⟩ := load_continuation_toNat hStrip hStrips hPixels hPos hAddr
  have hErr : t.map.err = 0 := by rw [hMap]; rfl
  refine ⟨.inl hErr, fun hNe => absurd hErr hNe, fun _ hMore => ?_⟩
  have hNotLast : s.map.strip.toNat + 2 ≠ s.map.n.toNat := by
    rw [hMap] at hMore
    exact of_decide_eq_false hMore
  rw [hMap, hStrip', hPos', hAddr']
  exact ⟨Nat.lt_of_le_of_ne hStrip hNotLast, hStrips, hPixels, hPos, rfl⟩

theorem mapInv_ordinaryAfter {s : State} {i : Inputs} (h : MapInv s) : MapInv (ordinaryAfter s i) := by
  have hMap : (ordinaryAfter s i).map = mapAfter s i := rfl
  unfold mapAfter at hMap
  split at hMap
  · exact mapInv_of_request hMap
  · split at hMap
    case isFalse => exact ⟨hMap ▸ h.errCode, hMap ▸ h.errEmpty, hMap ▸ h.broadcast⟩
    case isTrue hRsp =>
      obtain ⟨hValid, -⟩ := (Bool.and_eq_true _ _).mp hRsp
      split at hMap
      · exact ⟨by rw [hMap]; exact h.errCode, by rw [hMap]; exact h.errEmpty, by rw [hMap]; nofun⟩
      · rename_i hLast
        exact mapInv_of_continuation h hValid (Bool.eq_false_iff.mpr hLast) hMap

/-! ## The whole block (R131) -/

theorem inv_ordinaryAfter {s : State} {i : Inputs} (h : Inv s)
    (hIdx : takesPayload s i = true → s.rx.idx.toNat < s.cfg.rxbufCap) : Inv (ordinaryAfter s i) where
  params := h.params
  rxbuf := rxbufOk_ordinaryAfter h.rxbuf hIdx
  maxPayload := maxPayloadOk_ordinaryAfter i h.params h.maxPayload
  rx := rxInv_ordinaryAfter h.params h.maxPayload h.rx
  tx := txInv_ordinaryAfter h.params h.maxPayload h.tx
  map := mapInv_ordinaryAfter h.map

/-- A cycle with `rst = 1` needs of the state before it only what it keeps: the parameters and `RXBUF` (R281). -/
theorem inv_resetAfter {s : State} (i : Inputs) (hParams : LegalParams s.cfg) (hBuf : RxbufOk s) :
    Inv (resetAfter s i) where
  params := hParams
  rxbuf := ⟨hBuf.canonical, hBuf.inRange⟩
  maxPayload := (toNat_ofNat_of_le_cap hParams (Nat.le_refl _)).le
  rx :=
    { stateUsed := nofun
      idleBound := Nat.zero_le _
      idleRunning := fun _ => Nat.zero_le _
      lenChecked := nofun
      idxInside := nofun
      idxBound := Nat.zero_le _
      pendingWaits := nofun
      dropCode := .inl rfl }
  tx := ⟨fun hBusy => absurd rfl hBusy, nofun⟩
  map := ⟨.inl rfl, fun hErr => absurd rfl hErr, nofun⟩

/-- Settles O24: a step is the lockstep cycle, in which each unit keeps its own invariant. -/
theorem stepKeepsTheInvariant : Obligations.StepKeepsTheInvariant := by
  intro s t h hStep
  obtain ⟨rfl, hIdx⟩ := step_next_lockstep hStep
  cases hRst : (currentInputs s).rst with
  | true =>
    rw [lockstep_of_rst hRst]
    exact inv_resetAfter _ h.params h.rxbuf
  | false =>
    rw [lockstep_of_not_rst hRst]
    exact inv_ordinaryAfter h (hIdx hRst)

end Sys2Proof.Machine
end

section
/-! PROOFS of the statements of spec/40_rx_framer.md: every cycle keeps the checksum invariant (R131 (f), R93, R128). -/

namespace Sys2Proof.Machine

/-! ## The bytes of the length (R72, R92) -/

theorem lowHalf_zext16 (b : Byte) : lowHalf (zext16 b) = b := by
  apply BitVec.eq_of_toNat_eq
  simp [lowHalf, zext16]

theorem highHalf_zext16 (b : Byte) : highHalf (zext16 b) = 0 := by
  rw [zext16_eq_append, highHalf]
  exact BitVec.extractLsb'_append_eq_left

theorem lowHalf_lengthOf (hi lo : Byte) : lowHalf (lengthOf hi lo) = lo := BitVec.setWidth_append_eq_right

theorem highHalf_lengthOf (hi lo : Byte) : highHalf (lengthOf hi lo) = hi := BitVec.extractLsb'_append_eq_left

/-! ## The XOR of a packet (R93) -/

/-- Each further payload byte enters the XOR of a packet. -/
theorem packetXor_append (flags : Byte) (len : Half) (cmd : Byte) (ps : List Byte) (b : Byte) :
    packetXor flags len cmd (ps ++ [b]) = packetXor flags len cmd ps ^^^ b := by
  simp [packetXor, xorBytes_append, xorBytes, BitVec.xor_assoc]

/-- The XOR of a packet with no payload yet is that of its header. -/
theorem packetXor_nil (flags : Byte) (len : Half) (cmd : Byte) :
    packetXor flags len cmd [] = flags ^^^ (lowHalf len ^^^ highHalf len) ^^^ cmd := by
  simp [packetXor, xorBytes, BitVec.xor_assoc]

theorem rxbufBytes_of_buf_eq {s t : State} (h : t.rx.buf = s.rx.buf) (n : Nat) : rxbufBytes t n = rxbufBytes s n :=
  rxbufBytes_congr s t n fun a _ => congrArg (Memory.read · a) h

/-! ## The accumulator (R131 (f)) -/

/-- The accumulator's meaning rests on these registers of the framer only. -/
theorem accumulatorOk_congr {s t : State} (h : accumulatorOk s) (hState : t.rx.state = s.rx.state)
    (hAcc : t.rx.acc = s.rx.acc) (hFlags : t.rx.flags = s.rx.flags) (hLen : t.rx.len = s.rx.len)
    (hCmd : t.rx.cmd = s.rx.cmd) (hIdx : t.rx.idx = s.rx.idx) (hBuf : t.rx.buf = s.rx.buf) : accumulatorOk t := by
  unfold accumulatorOk at h ⊢
  rw [hState, hAcc, hFlags, hLen, hCmd, hIdx, rxbufBytes_of_buf_eq hBuf, rxbufBytes_of_buf_eq hBuf]
  exact h

theorem accumulatorOk_of_waitStart {s : State} (h : s.rx.state = .waitStart) : accumulatorOk s := by
  unfold accumulatorOk
  rw [h]
  trivial

/-- A payload byte extends the bytes in `RXBUF` and the accumulator alike (R123, R124). -/
theorem acc_of_payload {s t : State} {i : Inputs} (hFire : fireRx s i = true) (hState : s.rx.state = .readPayload)
    (hAcc : accumulatorOk s) (hRx : t.rx = rxAfter s i) :
    t.rx.acc = packetXor t.rx.flags t.rx.len t.rx.cmd (rxbufBytes t (s.rx.idx.toNat + 1)) := by
  rw [rxAfter_readPayload hFire hState] at hRx
  have hBuf : t.rx.buf = Memory.write s.rx.buf s.rx.idx.toNat i.rxData := by rw [hRx]; rfl
  unfold accumulatorOk at hAcc
  rw [hState] at hAcc
  rw [rxbufBytes_write hBuf, packetXor_append, hRx]
  exact congrArg (· ^^^ i.rxData) hAcc

theorem accumulatorOk_of_byte {s t : State} {i : Inputs} (hParams : LegalParams s.cfg) (hInv : RxInv s)
    (hFire : fireRx s i = true) (hAcc : accumulatorOk s) (hRx : t.rx = rxAfter s i) : accumulatorOk t := by
  have hBefore := hAcc
  unfold accumulatorOk at hBefore
  cases hState : s.rx.state with
  | unused7 => exact absurd hState hInv.stateUsed
  | waitStart =>
    rw [rxAfter_waitStart hFire hState] at hRx
    split at hRx
    · simp [accumulatorOk, hRx]
    · exact accumulatorOk_of_waitStart (by rw [hRx]; exact hState)
  | readFlags =>
    rw [rxAfter_readFlags hFire hState] at hRx
    rw [hState] at hBefore
    simp [accumulatorOk, hRx, hBefore]
  | readLengthLow =>
    rw [rxAfter_readLengthLow hFire hState] at hRx
    rw [hState] at hBefore
    simp [accumulatorOk, hRx, hBefore, rxReadAcked, lowHalf_zext16, highHalf_zext16]
  | readLengthHigh =>
    rw [rxAfter_readLengthHigh hFire hState] at hRx
    rw [hState] at hBefore
    obtain ⟨hXor, -⟩ := hBefore
    split at hRx
    · exact accumulatorOk_of_waitStart (by rw [hRx])
    · simp [accumulatorOk, hRx, hXor, rxReadAcked, declaredLength, lowHalf_lengthOf, highHalf_lengthOf,
        BitVec.xor_assoc]
  | readCommand =>
    rw [rxAfter_readCommand hFire hState] at hRx
    rw [hState] at hBefore
    split at hRx
    · rename_i hEmpty
      simp [accumulatorOk, hRx, hBefore, rxReadAcked, hEmpty, rxbufBytes, packetXor_nil]
    · simp [accumulatorOk, hRx, hBefore, rxReadAcked, rxbufBytes, packetXor_nil]
  | readPayload =>
    obtain ⟨-, hLimit⟩ := idx_lt_limit hParams hInv hState
    have hXor := acc_of_payload hFire hState hAcc hRx
    rw [rxAfter_readPayload hFire hState] at hRx
    have hIdx : t.rx.idx.toNat = s.rx.idx.toNat + 1 := by rw [hRx]; exact toNat_idx_succ hLimit
    have hLen : t.rx.len = s.rx.len := by rw [hRx]; rfl
    unfold accumulatorOk
    split at hRx
    · rename_i hLast
      rw [show t.rx.state = .readChecksum by rw [hRx]; rfl]
      simp only
      rwa [hLast, ← hLen] at hXor
    · rw [show t.rx.state = .readPayload by rw [hRx]; rfl]
      simp only
      rwa [← hIdx] at hXor
  | readChecksum =>
    rw [rxAfter_readChecksum hFire hState] at hRx
    exact accumulatorOk_of_waitStart (by rw [hRx]; split <;> rfl)

/-- Without a byte the framer's packet registers stand, or the packet is dropped (R113). -/
theorem accumulatorOk_of_no_byte {s t : State} {i : Inputs} (hFire : fireRx s i = false) (hAcc : accumulatorOk s)
    (hRx : t.rx = rxAfter s i) : accumulatorOk t := by
  rw [rxAfter_of_no_byte hFire] at hRx
  cases hOut : timesOut s i with
  | true => exact accumulatorOk_of_waitStart (by rw [hRx, hOut]; rfl)
  | false =>
    rw [hOut] at hRx
    apply accumulatorOk_congr hAcc <;> (rw [hRx]; rfl)

/-! ## The pending packet (R128) -/

theorem pendingChecksumOk_of_byte {s t : State} {i : Inputs} (hFire : fireRx s i = true) (hAcc : accumulatorOk s)
    (hRx : t.rx = rxAfter s i) : pendingChecksumOk t := by
  intro hPending
  have hHolds : s.rx.state = .readChecksum ∧ i.rxData = s.rx.acc := by
    rw [hRx, rxAfter_of_byte hFire] at hPending
    exact of_decide_eq_true hPending
  obtain ⟨hState, hChk⟩ := hHolds
  rw [rxAfter_readChecksum hFire hState, if_pos hChk] at hRx
  unfold accumulatorOk at hAcc
  rw [hState] at hAcc
  simp only at hAcc
  have hBuf : t.rx.buf = s.rx.buf := by rw [hRx]; rfl
  rw [rxbufBytes_of_buf_eq hBuf, hRx]
  exact hChk.trans hAcc

theorem pendingChecksumOk_of_no_byte {s t : State} {i : Inputs} (hFire : fireRx s i = false)
    (h : pendingChecksumOk s) (hRx : t.rx = rxAfter s i) : pendingChecksumOk t := by
  intro hPending
  rw [rxAfter_of_no_byte hFire] at hRx
  have hBefore : s.rx.pending = true := by
    rw [hRx] at hPending
    exact ((Bool.and_eq_true _ _).mp hPending).1
  have hBuf : t.rx.buf = s.rx.buf := by rw [hRx]; rfl
  rw [rxbufBytes_of_buf_eq hBuf, hRx]
  exact h hBefore

theorem checksumInv_ordinaryAfter {s : State} {i : Inputs} (hParams : LegalParams s.cfg) (hInv : RxInv s)
    (h : ChecksumInv s) : ChecksumInv (ordinaryAfter s i) := by
  cases hFire : fireRx s i with
  | true =>
    exact ⟨accumulatorOk_of_byte hParams hInv hFire h.accumulator rfl,
      pendingChecksumOk_of_byte hFire h.accumulator rfl⟩
  | false =>
    exact ⟨accumulatorOk_of_no_byte hFire h.accumulator rfl,
      pendingChecksumOk_of_no_byte hFire h.delivered rfl⟩

/-- Settles O25: in the lockstep cycle a byte enters the accumulator as it enters the packet, and the packet is
delivered when its checksum byte is the accumulator. -/
theorem stepKeepsTheChecksumInvariant : Obligations.StepKeepsTheChecksumInvariant := by
  intro s t hInv h hStep
  obtain ⟨rfl, -⟩ := step_next_lockstep hStep
  cases hRst : (currentInputs s).rst with
  | true =>
    rw [lockstep_of_rst hRst]
    exact ⟨accumulatorOk_of_waitStart rfl, nofun⟩
  | false =>
    rw [lockstep_of_not_rst hRst]
    exact checksumInv_ordinaryAfter hInv.params hInv.rx h

end Sys2Proof.Machine
end

section
/-! PROOFS of the statements of spec/40_rx_framer.md about whole packets: cycles in which only the framer works, chained
byte by byte into a packet (R91, R125, R126, R128, R132, R133), and the timeout in ticks (R113, R134). -/

namespace Sys2Proof.Machine

/-! ## Runs that leave no offer outstanding -/

/-- The inputs take `s` to `t`, whatever inputs follow, and no offer is left outstanding. -/
def Runs (s : State) (is : List Inputs) (t : State) : Prop :=
  ∀ rest, runFor is.length (s.fed (is ++ rest)) = .next (t.fed rest)

theorem Runs.refl (s : State) : Runs s [] s := fun _ => rfl

theorem Runs.trans {s t u : State} {is js : List Inputs} (h : Runs s is t) (h' : Runs t js u) :
    Runs s (is ++ js) u := by
  intro rest
  rw [List.length_append, List.append_assoc, runFor_add _ _ (h (js ++ rest))]
  exact h' rest

theorem Runs.runInputs_eq {s t : State} {is : List Inputs} (h : Runs s is t) : runInputs s is = .next (t.fed []) := by
  have hRun := h []
  rwa [List.append_nil] at hRun

/-- A cycle that leaves no offer outstanding and breaks no duty is one step of such a run. -/
theorem runs_one {s : State} {i : Inputs} (hRst : i.rst = false) (hPl : i.txPlValid = false)
    (hHeld : heldAfter s i = Held.none) (hIdx : takesPayload s i = true → s.rx.idx.toNat < s.cfg.rxbufCap) :
    Runs s [i] (ordinaryAfter s i) := by
  intro rest
  have hDuty : dutyBroken (s.fed (i :: rest)) i = none :=
    (dutyBroken_none_iff _ _).mpr ⟨offersKept_of_none i rfl, by rw [hPl]; nofun⟩
  have hAfter : ordinaryAfter (s.fed (i :: rest)) i = (ordinaryAfter s i).fed rest :=
    congrArg (fun held => { ordinaryAfter s i with env := rest, held := held }) hHeld
  apply runFor_one
  calc step (s.fed (i :: rest)) = runOps (selectedOps (s.fed (i :: rest)) i) (beginCycle (s.fed (i :: rest)) i) :=
        cycle_eq_runOps _ _ hDuty
    _ = .next (ordinaryAfter (s.fed (i :: rest)) i) := runOps_selectedOps hRst hIdx
    _ = .next ((ordinaryAfter s i).fed rest) := by rw [hAfter]

/-! ## Cycles in which only the framer's byte or tick is offered -/

/-- The inputs offer nothing but a byte or a tick to the framer. -/
structure RxOnly (i : Inputs) : Prop where
  rst : i.rst = false
  txReqValid : i.txReqValid = false
  txReady : i.txReady = false
  txPlValid : i.txPlValid = false
  mapReqValid : i.mapReqValid = false
  mapRspReady : i.mapRspReady = false
  csrValid : i.csrValid = false
  pktAck : i.pktAck = false
  plRdEn : i.plRdEn = false

theorem rxOnly_byteIn (b : Byte) : RxOnly (byteIn b) := by constructor <;> rfl

theorem rxOnly_tickIn : RxOnly tickIn := by constructor <;> rfl

@[simp] theorem byteIn_rxData (b : Byte) : (byteIn b).rxData = b := rfl

theorem rxReadAcked_of_rxOnly {i : Inputs} (s : State) (h : RxOnly i) : rxReadAcked s i = s.rx := by
  simp [rxReadAcked, h.pktAck, h.plRdEn]

theorem rxReadAcked_byteIn (s : State) (b : Byte) : rxReadAcked s (byteIn b) = s.rx :=
  rxReadAcked_of_rxOnly s (rxOnly_byteIn b)

/-- Registers outside the framer and `EVENT` that a run of such cycles keeps. -/
structure OtherUnitsKept (s t : State) : Prop where
  cfg : t.cfg = s.cfg
  tx : t.tx = s.tx
  map : t.map = s.map
  csr : t.csr = s.csr

theorem OtherUnitsKept.refl (s : State) : OtherUnitsKept s s := ⟨rfl, rfl, rfl, rfl⟩

theorem OtherUnitsKept.trans {s t u : State} (h : OtherUnitsKept s t) (h' : OtherUnitsKept t u) : OtherUnitsKept s u :=
  ⟨h'.cfg.trans h.cfg, h'.tx.trans h.tx, h'.map.trans h.map, h'.csr.trans h.csr⟩

theorem otherUnitsKept_ordinaryAfter {i : Inputs} (s : State) (h : RxOnly i) :
    OtherUnitsKept s (ordinaryAfter s i) where
  cfg := rfl
  tx := by simp [ordinaryAfter, txAfter, acceptsRequest, fireTxReq, fireTx, h.txReqValid, h.txReady]
  map := by simp [ordinaryAfter, mapAfter, fireMapReq, fireMapRsp, h.mapReqValid, h.mapRspReady]
  csr := csrAfter_of_no_write (by simp [writesConfig, h.csrValid])

/-- The framer alone raises bits of `EVENT`, and none is cleared. -/
theorem event_of_rxOnly {i : Inputs} (s : State) (h : RxOnly i) :
    (ordinaryAfter s i).event = s.event ||| rxEvents s i := by
  have hClear : eventClear i = 0 := by rw [eventClear_eq, if_neg (by simp [h.csrValid])]
  have hTx : refusesRequest s i = false := by simp [refusesRequest, fireTxReq, h.txReqValid]
  have hMap : mapFails s i = false := by simp [mapFails, fireMapReq, h.mapReqValid]
  change mergeEvent s.event (eventClear i) (eventSet s i) = _
  rw [hClear, mergeEvent_clear_none]
  simp [eventSet, rxEvents, hTx, hMap]

theorem runs_rxOnly {s : State} {i : Inputs} (h : RxOnly i) (hFree : i.rxValid = true → s.rx.pending = false)
    (hIdx : takesPayload s i = true → s.rx.idx.toNat < s.cfg.rxbufCap) : Runs s [i] (ordinaryAfter s i) := by
  refine runs_one h.rst h.txPlValid ?_ hIdx
  rw [heldAfter_eq]
  cases hValid : i.rxValid with
  | false => simp [h.txReqValid, h.txPlValid, h.mapReqValid, Held.none]
  | true => simp [h.rst, hFree hValid, h.txReqValid, h.txPlValid, h.mapReqValid, Held.none]

/-! ## Bytes fed to the framer -/

/-- The bytes, offered one each cycle and nothing else, take `s` to `t`, and change the framer and `EVENT` only. -/
structure Receives (s : State) (bs : List Byte) (t : State) : Prop where
  runs : Runs s (bs.map byteIn) t
  others : OtherUnitsKept s t

/-- The same, with no drop recorded (R262). -/
structure ReceivesQuietly (s : State) (bs : List Byte) (t : State) : Prop extends Receives s bs t where
  event : t.event = s.event
  chkErr : t.rx.chkErr = s.rx.chkErr
  lastDrop : t.rx.lastDrop = s.rx.lastDrop

theorem Receives.trans {s t u : State} {bs cs : List Byte} (h : Receives s bs t) (h' : Receives t cs u) :
    Receives s (bs ++ cs) u :=
  ⟨by rw [List.map_append]; exact h.runs.trans h'.runs, h.others.trans h'.others⟩

theorem ReceivesQuietly.refl (s : State) : ReceivesQuietly s [] s :=
  ⟨⟨Runs.refl s, OtherUnitsKept.refl s⟩, rfl, rfl, rfl⟩

theorem ReceivesQuietly.trans {s t u : State} {bs cs : List Byte} (h : ReceivesQuietly s bs t)
    (h' : ReceivesQuietly t cs u) : ReceivesQuietly s (bs ++ cs) u :=
  ⟨h.toReceives.trans h'.toReceives, h'.event.trans h.event, h'.chkErr.trans h.chkErr, h'.lastDrop.trans h.lastDrop⟩

theorem fireRx_byteIn {s : State} (b : Byte) (h : s.rx.pending = false) : fireRx s (byteIn b) = true := by
  simp [fireRx, byteIn, h]

theorem receives_byte {s : State} (b : Byte) (hPending : s.rx.pending = false)
    (hIdx : s.rx.state = .readPayload → s.rx.idx.toNat < s.cfg.rxbufCap) :
    Receives s [b] (ordinaryAfter s (byteIn b)) where
  runs := runs_rxOnly (rxOnly_byteIn b) (fun _ => hPending) fun hTakes => hIdx ((takesPayload_iff _ _).mp hTakes).2
  others := otherUnitsKept_ordinaryAfter s (rxOnly_byteIn b)

/-- A byte that fails neither the length check nor the checksum records no drop (R119, R125). -/
theorem receivesQuietly_byte {s : State} {r : RxUnit} (b : Byte) (hPending : s.rx.pending = false)
    (hFits : s.rx.state = .readLengthHigh → exceedsMax s (declaredLength s b) = false)
    (hIdx : s.rx.state = .readPayload → s.rx.idx.toNat < s.cfg.rxbufCap)
    (hHolds : s.rx.state = .readChecksum → b = s.rx.acc) (hRx : rxAfter s (byteIn b) = r) :
    ∃ t, ReceivesQuietly s [b] t ∧ t.rx = r := by
  have hFire := fireRx_byteIn b hPending
  have hNoChk : ¬ (s.rx.state = .readChecksum ∧ (byteIn b).rxData ≠ s.rx.acc) :=
    fun ⟨hState, hNe⟩ => hNe (hHolds hState)
  have hNoOvs : ¬ (s.rx.state = .readLengthHigh ∧ exceedsMax s (declaredLength s (byteIn b).rxData) = true) :=
    fun ⟨hState, hOver⟩ => Bool.false_ne_true ((hFits hState).symm.trans hOver)
  refine ⟨ordinaryAfter s (byteIn b), ⟨receives_byte b hPending hIdx, ?_, ?_, ?_⟩, hRx⟩
  · rw [event_of_rxOnly s (rxOnly_byteIn b), rxEvents_of_byte hFire, decide_eq_false hNoChk, decide_eq_false hNoOvs]
    simp
  · change (rxAfter s (byteIn b)).chkErr = _
    rw [rxAfter_of_byte hFire]
    exact if_neg hNoChk
  · change (rxAfter s (byteIn b)).lastDrop = _
    rw [rxAfter_of_byte hFire]
    exact (if_neg hNoChk).trans (if_neg hNoOvs)

/-- A byte whose state checks nothing (R115 to R118, R121, R122). -/
theorem receivesQuietly_uncheckedByte {s : State} {r : RxUnit} (b : Byte) (hPending : s.rx.pending = false)
    (hState : s.rx.state ≠ .readLengthHigh ∧ s.rx.state ≠ .readPayload ∧ s.rx.state ≠ .readChecksum)
    (hRx : rxAfter s (byteIn b) = r) : ∃ t, ReceivesQuietly s [b] t ∧ t.rx = r := by
  obtain ⟨hHigh, hPayload, hChk⟩ := hState
  exact receivesQuietly_byte b hPending (absurd · hHigh) (absurd · hPayload) (absurd · hChk) hRx

/-! ## The packet under way -/

/-- The framer waits for a start byte, and its parameters and `MAX_PAYLOAD` are legal (R9, R225). -/
structure ReadyToReceive (s : State) : Prop where
  params : LegalParams s.cfg
  maxPayload : MaxPayloadOk s
  state : s.rx.state = .waitStart
  pending : s.rx.pending = false

/-- The framer has taken a packet's header and these bytes of its payload: it waits for the next one, or after the last
for the checksum. -/
structure HasReceived (s : State) (flags : Byte) (len : Half) (cmd : Byte) (ps : List Byte) : Prop where
  notPending : s.rx.pending = false
  flagsTaken : s.rx.flags = flags
  lenTaken : s.rx.len = len
  cmdTaken : s.rx.cmd = cmd
  accumulated : s.rx.acc = packetXor flags len cmd ps
  stored : rxbufBytes s ps.length = ps
  payloadDue : ps.length < len.toNat → s.rx.state = .readPayload ∧ s.rx.idx.toNat = ps.length
  checksumDue : ps.length = len.toNat → s.rx.state = .readChecksum

/-- The header of a packet (R91). -/
def headerBytes (flags : Byte) (len : Half) (cmd : Byte) : List Byte :=
  [Config.startByte, flags, lowHalf len, highHalf len, cmd]

theorem wirePacketWith_eq (flags cmd : Byte) (payload : List Byte) (k : Byte) :
    wirePacketWith flags cmd payload k =
      headerBytes flags (BitVec.ofNat 16 payload.length) cmd ++ (payload ++ [k]) := rfl

theorem lengthOf_halves (v : Half) : lengthOf (highHalf v) (lowHalf v) = v := by
  apply BitVec.eq_of_toNat_eq
  rw [lengthOf, toNat_append_add, highHalf, lowHalf, BitVec.extractLsb'_toNat, BitVec.toNat_setWidth,
    Nat.shiftRight_eq_div_pow]
  have hv := v.isLt
  omega

/-- The two length bytes of a packet are read back as its length (R92, R118, R119). -/
theorem declaredLength_halves {s : State} (len : Half) (h : s.rx.len = zext16 (lowHalf len)) :
    declaredLength s (highHalf len) = len := by
  rw [declaredLength, h, lowHalf_zext16, lengthOf_halves]

theorem receives_startByte {s : State} (h : ReadyToReceive s) :
    ∃ t, ReceivesQuietly s [Config.startByte] t ∧ t.rx.pending = false ∧ t.rx.state = .readFlags ∧ t.rx.acc = 0 := by
  obtain ⟨t, hRun, hRx⟩ := receivesQuietly_uncheckedByte Config.startByte h.pending (by simp [h.state])
    (rxAfter_waitStart (fireRx_byteIn _ h.pending) h.state)
  simp only [byteIn_rxData, if_true, rxReadAcked_byteIn] at hRx
  exact ⟨t, hRun, by rw [hRx]; exact h.pending, by rw [hRx], by rw [hRx]⟩

theorem receives_flagsAndLength {s : State} (flags : Byte) {len : Half} (hPending : s.rx.pending = false)
    (hState : s.rx.state = .readFlags) (hAcc : s.rx.acc = 0) (hLen : len.toNat ≤ s.csr.maxPayload.toNat) :
    ∃ t, ReceivesQuietly s [flags, lowHalf len, highHalf len] t ∧ t.rx.pending = false ∧ t.rx.state = .readCommand ∧
      t.rx.flags = flags ∧ t.rx.len = len ∧ t.rx.acc = flags ^^^ (lowHalf len ^^^ highHalf len) := by
  obtain ⟨s₁, hRun₁, hRx₁⟩ := receivesQuietly_uncheckedByte flags hPending (by simp [hState])
    (rxAfter_readFlags (fireRx_byteIn _ hPending) hState)
  simp only [byteIn_rxData, rxReadAcked_byteIn] at hRx₁
  have hPending₁ : s₁.rx.pending = false := by rw [hRx₁]; exact hPending
  obtain ⟨s₂, hRun₂, hRx₂⟩ := receivesQuietly_uncheckedByte (lowHalf len) hPending₁ (by simp [hRx₁])
    (rxAfter_readLengthLow (fireRx_byteIn _ hPending₁) (by rw [hRx₁]))
  simp only [byteIn_rxData, rxReadAcked_byteIn] at hRx₂
  have hPending₂ : s₂.rx.pending = false := by rw [hRx₂]; exact hPending₁
  have hDeclared : declaredLength s₂ (highHalf len) = len := declaredLength_halves len (by rw [hRx₂])
  have hFits : exceedsMax s₂ len = false := by
    rw [exceedsMax_eq_false_iff, hRun₂.others.csr, hRun₁.others.csr]
    exact hLen
  obtain ⟨s₃, hRun₃, hRx₃⟩ := receivesQuietly_byte (highHalf len) hPending₂ (fun _ => by rw [hDeclared, hFits])
    (by simp [hRx₂]) (by simp [hRx₂]) (rxAfter_readLengthHigh (fireRx_byteIn _ hPending₂) (by rw [hRx₂]))
  simp only [byteIn_rxData, rxReadAcked_byteIn, hDeclared, hFits, Bool.false_eq_true, if_false] at hRx₃
  refine ⟨s₃, hRun₁.trans (hRun₂.trans hRun₃), ?_⟩
  simp [hRx₃, hRx₂, hRx₁, hPending, hAcc, BitVec.xor_assoc]

theorem receives_command {s : State} (cmd : Byte) {flags : Byte} {len : Half} (hPending : s.rx.pending = false)
    (hState : s.rx.state = .readCommand) (hFlags : s.rx.flags = flags) (hLen : s.rx.len = len)
    (hAcc : s.rx.acc = flags ^^^ (lowHalf len ^^^ highHalf len)) :
    ∃ t, ReceivesQuietly s [cmd] t ∧ HasReceived t flags len cmd [] := by
  obtain ⟨t, hRun, hRx⟩ := receivesQuietly_uncheckedByte cmd hPending (by simp [hState])
    (rxAfter_readCommand (fireRx_byteIn _ hPending) hState)
  simp only [byteIn_rxData, rxReadAcked_byteIn, hLen, hAcc, hFlags, hPending, ← packetXor_nil] at hRx
  refine ⟨t, hRun, ?_⟩
  by_cases hEmpty : len = 0
  · rw [if_pos hEmpty] at hRx
    constructor <;> simp [hRx, hEmpty, rxbufBytes]
  · rw [if_neg hEmpty] at hRx
    have hPositive : len.toNat ≠ 0 := fun hZero => hEmpty (BitVec.eq_of_toNat_eq hZero)
    constructor <;> simp [hRx, rxbufBytes, Ne.symm hPositive]

/-- The five bytes of the header, each in its state (R115 to R122). -/
theorem receives_header {s : State} (flags cmd : Byte) {len : Half} (h : ReadyToReceive s)
    (hLen : len.toNat ≤ s.csr.maxPayload.toNat) :
    ∃ t, ReceivesQuietly s (headerBytes flags len cmd) t ∧ HasReceived t flags len cmd [] := by
  obtain ⟨s₁, hStart, hPending₁, hState₁, hAcc₁⟩ := receives_startByte h
  obtain ⟨s₂, hLength, hPending₂, hState₂, hFlags₂, hLen₂, hAcc₂⟩ :=
    receives_flagsAndLength flags hPending₁ hState₁ hAcc₁ (hStart.others.csr ▸ hLen)
  obtain ⟨t, hCmd, hTaken⟩ := receives_command cmd hPending₂ hState₂ hFlags₂ hLen₂ hAcc₂
  exact ⟨t, hStart.trans (hLength.trans hCmd), hTaken⟩

/-- One payload byte more (R123, R124): its index is below a length that `RXBUF` holds. -/
theorem receives_payloadByte {s : State} {flags cmd : Byte} {len : Half} {ps : List Byte} (b : Byte)
    (h : HasReceived s flags len cmd ps) (hParams : LegalParams s.cfg) (hCap : len.toNat ≤ s.cfg.rxbufCap)
    (hMore : ps.length < len.toNat) :
    ∃ t, ReceivesQuietly s [b] t ∧ HasReceived t flags len cmd (ps ++ [b]) := by
  obtain ⟨hState, hIdx⟩ := h.payloadDue hMore
  have hLimit := hParams.capLimit
  obtain ⟨t, hRun, hRx⟩ := receivesQuietly_byte b h.notPending (by simp [hState]) (fun _ => by omega) (by simp [hState])
    (rxAfter_readPayload (fireRx_byteIn _ h.notPending) hState)
  simp only [byteIn_rxData, rxReadAcked_byteIn, RxUnit.stored, h.lenTaken, hIdx] at hRx
  have hIdx' : t.rx.idx.toNat = ps.length + 1 := by
    rw [hRx]
    exact (toNat_idx_succ (by omega)).trans (by rw [hIdx])
  refine ⟨t, hRun, ?_⟩
  constructor
  · rw [hRx]; exact h.notPending
  · rw [hRx]; exact h.flagsTaken
  · rw [hRx]
  · rw [hRx]; exact h.cmdTaken
  · rw [packetXor_append, ← h.accumulated, hRx]
  · rw [List.length_append, List.length_singleton, rxbufBytes_write (s := s) (b := b) (by rw [hRx]), h.stored]
  · intro hDue
    rw [List.length_append, List.length_singleton] at hDue ⊢
    exact ⟨by rw [hRx]; exact if_neg (by omega), hIdx'⟩
  · intro hDone
    rw [List.length_append, List.length_singleton] at hDone
    rw [hRx]
    exact if_pos hDone

/-- The rest of the payload, byte by byte. -/
theorem receives_payload {s : State} {flags cmd : Byte} {len : Half} {ps : List Byte} (qs : List Byte)
    (h : HasReceived s flags len cmd ps) (hParams : LegalParams s.cfg) (hCap : len.toNat ≤ s.cfg.rxbufCap)
    (hLen : ps.length + qs.length = len.toNat) :
    ∃ t, ReceivesQuietly s qs t ∧ HasReceived t flags len cmd (ps ++ qs) := by
  induction qs generalizing s ps with
  | nil => exact ⟨s, ReceivesQuietly.refl s, by rwa [List.append_nil]⟩
  | cons q qs ih =>
    rw [List.length_cons] at hLen
    obtain ⟨u, hByte, hTaken⟩ := receives_payloadByte q h hParams hCap (by omega)
    obtain ⟨t, hRest, hAll⟩ := ih hTaken (hByte.others.cfg ▸ hParams) (hByte.others.cfg ▸ hCap)
      (by rw [List.length_append, List.length_singleton]; omega)
    rw [List.append_assoc] at hAll
    exact ⟨t, hByte.trans hRest, hAll⟩

/-- A payload within `MAX_PAYLOAD` has a length of 16 bits that `RXBUF` holds. -/
theorem toNat_length_of_ready {s : State} {payload : List Byte} (h : ReadyToReceive s)
    (hLen : payload.length ≤ s.csr.maxPayload.toNat) :
    (BitVec.ofNat 16 payload.length).toNat = payload.length ∧ payload.length ≤ s.cfg.rxbufCap := by
  have hMax := s.csr.maxPayload.isLt
  exact ⟨(BitVec.toNat_ofNat _ _).trans (Nat.mod_eq_of_lt (by omega)), Nat.le_trans hLen h.maxPayload⟩

/-- Everything of a packet but its checksum byte. -/
theorem receives_body {s : State} (flags cmd : Byte) {payload : List Byte} (h : ReadyToReceive s)
    (hLen : payload.length ≤ s.csr.maxPayload.toNat) :
    ∃ t, ReceivesQuietly s (headerBytes flags (BitVec.ofNat 16 payload.length) cmd ++ payload) t ∧
      HasReceived t flags (BitVec.ofNat 16 payload.length) cmd payload ∧ t.rx.state = .readChecksum := by
  obtain ⟨hNat, hCap⟩ := toNat_length_of_ready h hLen
  obtain ⟨u, hHeader, hTaken⟩ := receives_header flags cmd h (by rwa [hNat])
  obtain ⟨t, hPayload, hAll⟩ := receives_payload payload hTaken (hHeader.others.cfg ▸ h.params)
    (by rw [hNat, hHeader.others.cfg]; exact hCap) (by rw [hNat, List.length_nil, Nat.zero_add])
  rw [List.nil_append] at hAll
  exact ⟨t, hHeader.trans hPayload, hAll, hAll.checksumDue hNat.symm⟩

/-! ## Whole packets -/

/-- The packet is pending, its payload in `RXBUF` (R128). -/
structure Delivered (t : State) (flags cmd : Byte) (payload : List Byte) : Prop where
  pending : t.rx.pending = true
  waiting : t.rx.state = .waitStart
  flagsShown : t.rx.flags = flags
  lenShown : t.rx.len = BitVec.ofNat 16 payload.length
  cmdShown : t.rx.cmd = cmd
  chkShown : t.rx.chk = checksumOf flags cmd payload
  stored : rxbufBytes t payload.length = payload

/-- A packet whose last byte is its checksum is delivered (R125, R128). -/
theorem receives_validPacket {s : State} (flags cmd : Byte) {payload : List Byte} (h : ReadyToReceive s)
    (hLen : payload.length ≤ s.csr.maxPayload.toNat) :
    ∃ t, ReceivesQuietly s (wirePacket flags cmd payload) t ∧ Delivered t flags cmd payload := by
  obtain ⟨u, hBody, hTaken, hState⟩ := receives_body flags cmd h hLen
  have hAcc : checksumOf flags cmd payload = u.rx.acc := hTaken.accumulated.symm
  obtain ⟨t, hLast, hRx⟩ := receivesQuietly_byte (checksumOf flags cmd payload) hTaken.notPending (by simp [hState])
    (by simp [hState]) (fun _ => hAcc) (rxAfter_readChecksum (fireRx_byteIn _ hTaken.notPending) hState)
  simp only [byteIn_rxData, rxReadAcked_byteIn, if_pos hAcc] at hRx
  refine ⟨t, ?_, ?_⟩
  · rw [wirePacket, wirePacketWith_eq, ← List.append_assoc]
    exact hBody.trans hLast
  · have hBuf : t.rx.buf = u.rx.buf := by rw [hRx]
    constructor
    · rw [hRx]
    · rw [hRx]
    · rw [hRx]; exact hTaken.flagsTaken
    · rw [hRx]; exact hTaken.lenTaken
    · rw [hRx]; exact hTaken.cmdTaken
    · rw [hRx]
    · rw [rxbufBytes_of_buf_eq hBuf, hTaken.stored]

/-- A packet whose last byte is not its checksum is dropped and counted (R126, R262). -/
theorem receives_failedPacket {s : State} (flags cmd : Byte) {payload : List Byte} {k : Byte} (h : ReadyToReceive s)
    (hLen : payload.length ≤ s.csr.maxPayload.toNat) (hFails : k ≠ checksumOf flags cmd payload) :
    ∃ t, Receives s (wirePacketWith flags cmd payload k) t ∧ t.rx.pending = false ∧ t.rx.state = .waitStart ∧
      t.rx.chkErr = s.rx.chkErr + 1 ∧ t.rx.lastDrop = Config.errChecksum ∧ t.event = s.event ||| eventChk := by
  obtain ⟨u, hBody, hTaken, hState⟩ := receives_body flags cmd h hLen
  have hFire := fireRx_byteIn k hTaken.notPending
  have hAcc : ¬ k = u.rx.acc := fun hk => hFails (hk.trans hTaken.accumulated)
  have hRx := rxAfter_readChecksum hFire hState
  simp only [byteIn_rxData, rxReadAcked_byteIn, if_neg hAcc] at hRx
  have hEvents : rxEvents u (byteIn k) = eventChk := by
    rw [rxEvents_of_byte hFire]
    simp [hState, hAcc]
  refine ⟨ordinaryAfter u (byteIn k), ?_, ?_, ?_, ?_, ?_, ?_⟩
  · rw [wirePacketWith_eq, ← List.append_assoc]
    exact hBody.toReceives.trans (receives_byte k hTaken.notPending (by simp [hState]))
  · exact (congrArg RxUnit.pending hRx).trans hTaken.notPending
  · exact congrArg RxUnit.state hRx
  · exact (congrArg RxUnit.chkErr hRx).trans (congrArg (· + 1) hBody.chkErr)
  · exact congrArg RxUnit.lastDrop hRx
  · rw [event_of_rxOnly u (rxOnly_byteIn k), hEvents, hBody.event]

theorem ReadyToReceive.of_inv {s : State} (h : Inv s) (hState : s.rx.state = .waitStart)
    (hPending : s.rx.pending = false) : ReadyToReceive s :=
  ⟨h.params, h.maxPayload, hState, hPending⟩

/-- A dropped packet leaves the framer ready for the next one (R133). -/
theorem ReadyToReceive.of_others {s t : State} (h : ReadyToReceive s) (hOthers : OtherUnitsKept s t)
    (hState : t.rx.state = .waitStart) (hPending : t.rx.pending = false) : ReadyToReceive t where
  params := hOthers.cfg ▸ h.params
  maxPayload := by
    unfold MaxPayloadOk
    rw [hOthers.cfg, hOthers.csr]
    exact h.maxPayload
  state := hState
  pending := hPending

/-- Settles O55: header, payload and checksum byte, each by the state that takes it (`receives_validPacket`). -/
theorem packetIsDeliveredUnchanged : Obligations.PacketIsDeliveredUnchanged := by
  intro s flags cmd payload hInv hState hPending hLen
  have hReady := ReadyToReceive.of_inv hInv hState hPending
  obtain ⟨t, hRun, hDelivered⟩ := receives_validPacket flags cmd hReady hLen
  obtain ⟨hNat, -⟩ := toNat_length_of_ready hReady hLen
  exact ⟨t.fed [], hRun.runs.runInputs_eq, hDelivered.pending, hDelivered.flagsShown,
    (congrArg BitVec.toNat hDelivered.lenShown).trans hNat, hDelivered.cmdShown, hDelivered.chkShown,
    hDelivered.stored, hRun.chkErr, hRun.lastDrop, hDelivered.waiting, hRun.event, hRun.others.tx,
    hRun.others.map, hRun.others.csr⟩

/-! ## Errors on the wire (R132, R133) -/

/-- Errors by XOR change the checksum of a packet by their own XOR. -/
theorem checksumOf_errors (flags cmd ef ec : Byte) {payload ep : List Byte} (h : ep.length = payload.length) :
    checksumOf (flags ^^^ ef) (cmd ^^^ ec) (List.zipWith (· ^^^ ·) payload ep) =
      checksumOf flags cmd payload ^^^ (ef ^^^ ec ^^^ xorBytes ep) := by
  have hLength : (List.zipWith (· ^^^ ·) payload ep).length = payload.length := by simp [h]
  rw [checksumOf, hLength, checksumOf, packetXor, packetXor, xorBytes_zipWith payload ep h]
  ac_rfl

/-- The corrupted checksum byte is the checksum of the corrupted packet exactly when the errors cancel. -/
theorem checksumByte_holds_iff (flags cmd ef ec ek : Byte) {payload ep : List Byte} (h : ep.length = payload.length) :
    checksumOf flags cmd payload ^^^ ek =
        checksumOf (flags ^^^ ef) (cmd ^^^ ec) (List.zipWith (· ^^^ ·) payload ep) ↔
      ef ^^^ ec ^^^ xorBytes ep ^^^ ek = 0 := by
  rw [checksumOf_errors flags cmd ef ec h, BitVec.xor_right_inj, ← BitVec.xor_eq_zero_iff, BitVec.xor_comm]
  exact Iff.rfl

/-- Settles O56: the corrupted packet is a packet of its own, valid exactly when the errors cancel
(`checksumByte_holds_iff`). -/
theorem checksumDetectsErrorsThatDoNotCancel : Obligations.ChecksumDetectsErrorsThatDoNotCancel := by
  intro s flags cmd ef ec ek payload ep hInv hState hPending hLen hErrors
  have hReady := ReadyToReceive.of_inv hInv hState hPending
  have hHolds := checksumByte_holds_iff flags cmd ef ec ek hErrors
  have hLen' : (List.zipWith (· ^^^ ·) payload ep).length ≤ s.csr.maxPayload.toNat := by simp [hErrors, hLen]
  by_cases hCancel : ef ^^^ ec ^^^ xorBytes ep ^^^ ek = 0
  · rw [hHolds.mpr hCancel]
    obtain ⟨t, hRun, hDelivered⟩ := receives_validPacket (flags ^^^ ef) (cmd ^^^ ec) hReady hLen'
    refine ⟨t.fed [], hRun.runs.runInputs_eq, hDelivered.waiting, ?_⟩
    rw [if_neg (not_not_intro hCancel)]
    exact ⟨hDelivered.pending, hRun.chkErr, hRun.lastDrop, hRun.event⟩
  · obtain ⟨t, hRun, hNone, hWait, hCount, hCode, hEvent⟩ :=
      receives_failedPacket (flags ^^^ ef) (cmd ^^^ ec) hReady hLen' (hHolds.not.mpr hCancel)
    refine ⟨t.fed [], hRun.runs.runInputs_eq, hWait, ?_⟩
    rw [if_pos hCancel]
    exact ⟨hNone, hCount, hCode, hEvent⟩

/-- Settles O57: the corrupted packet leaves the framer ready, so the valid one after it is delivered. -/
theorem validPacketAfterACorruptedOneIsDelivered : Obligations.ValidPacketAfterACorruptedOneIsDelivered := by
  intro s flags cmd ef ec ek payload ep flags' cmd' payload' hInv hState hPending hLen hErrors hNoCancel hLen'
  have hReady := ReadyToReceive.of_inv hInv hState hPending
  obtain ⟨u, hFirst, hNone, hWait, hCount, -, -⟩ := receives_failedPacket (flags ^^^ ef) (cmd ^^^ ec) hReady
    (by simp [hErrors, hLen]) ((checksumByte_holds_iff flags cmd ef ec ek hErrors).not.mpr hNoCancel)
  have hReady' := hReady.of_others hFirst.others hWait hNone
  have hLenU : payload'.length ≤ u.csr.maxPayload.toNat := hFirst.others.csr ▸ hLen'
  obtain ⟨t, hSecond, hDelivered⟩ := receives_validPacket flags' cmd' hReady' hLenU
  obtain ⟨hNat, -⟩ := toNat_length_of_ready hReady' hLenU
  exact ⟨t.fed [], (hFirst.trans hSecond.toReceives).runs.runInputs_eq, hDelivered.pending, hDelivered.flagsShown,
    (congrArg BitVec.toNat hDelivered.lenShown).trans hNat, hDelivered.cmdShown, hDelivered.stored,
    hSecond.chkErr.trans hCount⟩

/-! ## The timeout in ticks (R113, R134) -/

theorem runs_tick (s : State) : Runs s [tickIn] (ordinaryAfter s tickIn) :=
  runs_rxOnly rxOnly_tickIn nofun nofun

/-- A tick counts, and drops the packet if the limit is passed. -/
theorem rxAfter_tick (s : State) :
    rxAfter s tickIn =
      { s.rx with
        idle := min (s.rx.idle + 1) (s.cfg.timeoutTicks + 1)
        state := if timesOut s tickIn then .waitStart else s.rx.state
        lastDrop := if timesOut s tickIn then Config.errTimeout else s.rx.lastDrop } := by
  rw [rxAfter_of_no_byte rfl, rxReadAcked_of_rxOnly s rxOnly_tickIn]
  rfl

theorem timesOut_tick {s : State} (h : timeoutRuns s.rx.state = true) :
    timesOut s tickIn = decide (s.cfg.timeoutTicks < s.rx.idle + 1) := by
  simp [timesOut, fireRx, tickIn, h]

theorem event_tick (s : State) :
    (ordinaryAfter s tickIn).event = s.event ||| bitIf (timesOut s tickIn) eventTmo := by
  rw [event_of_rxOnly s rxOnly_tickIn]
  simp [rxEvents, checksumFails, oversize, fireRx, tickIn]

/-- Up to the limit each tick only counts. -/
theorem runs_ticks {s : State} (hRuns : timeoutRuns s.rx.state = true) (hIdle : s.rx.idle = 0) {k : Nat}
    (hk : k ≤ s.cfg.timeoutTicks) :
    ∃ t, Runs s (List.replicate k tickIn) t ∧ t.cfg = s.cfg ∧ t.rx = { s.rx with idle := k } ∧ t.event = s.event := by
  induction k with
  | zero => exact ⟨s, Runs.refl s, rfl, by rw [← hIdle], rfl⟩
  | succ k ih =>
    obtain ⟨u, hRun, hCfg, hRx, hEvent⟩ := ih (by omega)
    have hIn : timesOut u tickIn = false := by
      rw [timesOut_tick (by rw [hRx]; exact hRuns), hCfg, hRx]
      exact decide_eq_false (by simp only; omega)
    refine ⟨ordinaryAfter u tickIn, ?_, hCfg, ?_, ?_⟩
    · rw [List.replicate_succ']
      exact hRun.trans (runs_tick u)
    · change rxAfter u tickIn = _
      rw [rxAfter_tick, hIn, hCfg, hRx]
      simp only [Bool.false_eq_true, if_false, Nat.min_eq_left (show k + 1 ≤ s.cfg.timeoutTicks + 1 by omega)]
    · rw [event_tick, hIn, bitIf_false, BitVec.or_zero, hEvent]

/-- Settles O58: after `TIMEOUT_TICKS` ticks that only count (`runs_ticks`) the next one expires. -/
theorem timeoutComesOneTickAfterTheLimit : Obligations.TimeoutComesOneTickAfterTheLimit := by
  intro s hRuns hIdle
  refine ⟨fun k hk => ?_, ?_⟩
  · obtain ⟨t, hRun, -, hRx, hEvent⟩ := runs_ticks hRuns hIdle hk
    exact ⟨t.fed [], hRun.runInputs_eq, hRx, hEvent⟩
  · obtain ⟨u, hRun, hCfg, hRx, hEvent⟩ := runs_ticks hRuns hIdle (Nat.le_refl _)
    have hOut : timesOut u tickIn = true := by
      rw [timesOut_tick (by rw [hRx]; exact hRuns), hCfg, hRx]
      exact decide_eq_true (Nat.lt_succ_self _)
    refine ⟨(ordinaryAfter u tickIn).fed [], ?_, ?_, ?_⟩
    · rw [List.replicate_succ']
      exact (hRun.trans (runs_tick u)).runInputs_eq
    · change rxAfter u tickIn = _
      rw [rxAfter_tick, hOut, hCfg, hRx]
      simp only [if_true, Nat.min_self]
      rfl
    · change (ordinaryAfter u tickIn).event = _
      rw [event_tick, hOut, bitIf_true, hEvent]
      rfl

end Sys2Proof.Machine
end

section
/-! PROOFS of the statements of spec/41_tx_encoder.md: what each operation of the encoder does (R142 to R152), what a cycle
shows on the ports (R56 to R63, R144, R221), and that a unit whose partner does not act waits (R144, R202, R276, R286). -/

namespace Sys2Proof.Machine

/-! ## The operations of the encoder (R142 to R152) -/

/-- A byte sent, with any update of the encoder: the shape of every emitting operation. -/
theorem sendByte_setTx_completes (b : Byte) (x : TxUnit) (s : State) :
    ∃ t, (.next ((sendByte b s).setTx x) : Result) = .next t ∧ t.out.txValid = true ∧ t.out.txData = b ∧ t.tx = x ∧
      OutsideTxKept s t ∧ RxbufKept s t :=
  ⟨_, rfl, rfl, rfl, rfl, ⟨rfl, rfl, rfl, rfl, rfl, rfl, rfl, rfl⟩, rxbufKept_refl s⟩

/-- Settles O35: the acceptance loads the encoder alone, the refusal raises its bit of `EVENT` alone. -/
theorem txRequestsComplete : Obligations.TxRequestsComplete := fun s _ _ _ =>
  ⟨⟨_, rfl, rfl, rxbufKept_refl s⟩, ⟨_, congrArg Host.Outcome.next (raiseTxErr_eq s), rfl, rxbufKept_refl s⟩⟩

/-- Settles O36: each operation is a byte sent with an update of the encoder. -/
theorem txHeaderAndChecksumBytesComplete : Obligations.TxHeaderAndChecksumBytesComplete := by
  intro s
  rw [← lowHalf_eq_extractLsb']
  exact ⟨sendByte_setTx_completes _ _ s, sendByte_setTx_completes _ _ s, sendByte_setTx_completes _ _ s,
    sendByte_setTx_completes _ _ s, sendByte_setTx_completes _ _ s⟩

/-- The two outcomes of a command byte are one byte sent, with an update that depends on the length (R150). -/
theorem exec_txEmitCmd_eq (s : State) :
    exec .txEmitCmd s = .next ((sendByte s.tx.cmd s).setTx
      (if s.tx.len = 0 then { s.tx with acc := s.tx.acc ^^^ s.tx.cmd, state := .chk }
      else { s.tx with acc := s.tx.acc ^^^ s.tx.cmd, cnt := 0, state := .payload })) := by
  change Host.Outcome.next (if s.tx.len = 0 then _ else _) = _
  split <;> rfl

/-- Settles O37: each operation is a byte sent with an update of the encoder. -/
theorem txCommandAndPayloadBytesComplete : Obligations.TxCommandAndPayloadBytesComplete := by
  intro s p
  rw [exec_txEmitCmd_eq]
  exact ⟨sendByte_setTx_completes _ _ s, sendByte_setTx_completes _ _ s⟩

/-! ## The outputs of a cycle (R56 to R64, R144) -/

/-- The ports after a step show the outputs of its cycle, with `rst = 1` or not. -/
theorem step_out {s t : State} (h : step s = .next t) : t.out = outputs s (currentInputs s) := by
  obtain ⟨rfl, -⟩ := step_next_lockstep h
  unfold lockstep
  split <;> rfl

theorem outputs_txValid (s : State) (i : Inputs) :
    (outputs s i).txValid =
      (!i.rst && (match s.tx.state with | .idle => false | .payload => i.txPlValid | _ => true)) := by
  cases hState : s.tx.state <;> simp [outputs, txOffers, hState]

theorem outputs_txData (s : State) (i : Inputs) :
    (outputs s i).txData = (match s.tx.state with
      | .idle => 0x00
      | .start => 0xAA
      | .flags => s.tx.flags
      | .lenLo => s.tx.len.extractLsb' 0 8
      | .lenHi => s.tx.len.extractLsb' 8 8
      | .cmd => s.tx.cmd
      | .payload => i.txPlData
      | .chk => s.tx.acc) := by
  cases hState : s.tx.state with
  | lenLo => simp [outputs, txByteOffered, hState, lowHalf_eq_extractLsb']
  | idle | start | flags | lenHi | cmd | payload | chk =>
    simp [outputs, txByteOffered, hState, highHalf, Config.startByte]

theorem outputs_csrRdata (s : State) (i : Inputs) :
    (outputs s i).csrRdata =
      (if i.rst = false ∧ i.csrValid = true ∧ i.csrWe = false then readRegister s i.csrAddr else 0) := by
  simp [outputs, and_assoc]

/-- Settles O10: the ports show `outputs` of the pre-state (`step_out`), which gives each port by its own rule. -/
theorem outputsFollowThePreState : Obligations.OutputsFollowThePreState := by
  intro s t h i hi
  subst hi
  rw [step_out h]
  refine ⟨rfl, outputs_txValid s _, outputs_txData s _, rfl, ?_, rfl, rfl, rfl, rfl, rfl, rfl, rfl, rfl, rfl, rfl, rfl,
    rfl, rfl, rfl, outputs_csrRdata s _⟩
  simp [outputs, txPlReady, Bool.and_assoc]

/-! ## Units that wait (R144, R202, R276, R286) -/

/-- The encoder holds in a cycle that takes neither a request nor a byte (R141). -/
theorem txAfter_of_no_transfer {s : State} {i : Inputs} (hReq : fireTxReq s i = false) (hByte : fireTx s i = false) :
    txAfter s i = s.tx := by
  simp [txAfter, acceptsRequest, hReq, hByte]

/-- A busy encoder takes no request (R141). -/
theorem fireTxReq_of_busy {s : State} (i : Inputs) (h : s.tx.state ≠ .idle) : fireTxReq s i = false := by
  simp [fireTxReq, txIsIdle, h]

/-- Settles O16: without its partner the unit has no transfer in the cycle, and its rule of the lockstep cycle holds. -/
theorem stalledUnitsHold : Obligations.StalledUnitsHold := by
  intro s t i hi h hRst
  subst hi
  obtain ⟨rfl, -⟩ := step_next_lockstep h
  rw [lockstep_of_not_rst hRst]
  refine ⟨fun hBusy hReady => ?_, fun hState hValid => ?_, fun hBeat hReady => ?_, fun hRead => ?_⟩
  · exact txAfter_of_no_transfer (fireTxReq_of_busy _ hBusy) (by simp [fireTx, hReady])
  · exact txAfter_of_no_transfer (fireTxReq_of_busy _ (by simp [hState])) (by simp [fireTx, txOffers, hState, hValid])
  · simp [ordinaryAfter, mapAfter, fireMapReq, fireMapRsp, hBeat, hReady]
  · simp [ordinaryAfter, rxAfter, hRead]

end Sys2Proof.Machine
end

section
/-! PROOFS of the statements of spec/41_tx_encoder.md about whole packets: cycles that serve the encoder alone, chained byte
by byte into a packet (R145, R153, R293), and the round trip (R154). -/

namespace Sys2Proof.Machine

/-! ## Cycles that serve the encoder -/

/-- The cycle takes every offer of the encoder's client, the request within `MAX_PAYLOAD`, and brings nothing to the rest of
the block. -/
structure TxServed (s : State) (i : Inputs) : Prop where
  rst : i.rst = false
  tick : i.tick = false
  rxValid : i.rxValid = false
  mapReqValid : i.mapReqValid = false
  csrValid : i.csrValid = false
  reqTaken : i.txReqValid = true → s.tx.state = .idle ∧ i.txReqLen.toNat ≤ s.csr.maxPayload.toNat
  payloadTaken : i.txPlValid = true → s.tx.state = .payload ∧ i.txReady = true

theorem heldAfter_of_txServed {s : State} {i : Inputs} (h : TxServed s i) : heldAfter s i = Held.none := by
  have hReq : (i.txReqValid && !txIsIdle s) = false := by
    cases hValid : i.txReqValid with
    | false => rfl
    | true => simp [txIsIdle, (h.reqTaken hValid).1]
  have hPayload : (i.txPlValid && !txPlReady s i) = false := by
    cases hValid : i.txPlValid with
    | false => rfl
    | true =>
      obtain ⟨hState, hReady⟩ := h.payloadTaken hValid
      simp [txPlReady, hState, hReady]
  rw [heldAfter_eq]
  simp [h.rst, h.rxValid, h.mapReqValid, hReq, hPayload, Held.none]

theorem refusesRequest_of_txServed {s : State} {i : Inputs} (h : TxServed s i) : refusesRequest s i = false := by
  cases hValid : i.txReqValid with
  | false => simp [refusesRequest, fireTxReq, hValid]
  | true => rw [refusesRequest, (exceedsMax_eq_false_iff _ _).mpr (h.reqTaken hValid).2, Bool.and_false]

/-- No unit raises a bit of `EVENT` in such a cycle, and none is cleared. -/
theorem event_of_txServed {s : State} {i : Inputs} (h : TxServed s i) : (ordinaryAfter s i).event = s.event := by
  have hClear : eventClear i = 0 := by rw [eventClear_eq, if_neg (by simp [h.csrValid])]
  have hSet : eventSet s i = 0 := by
    simp [eventSet, checksumFails, oversize, timesOut, fireRx, mapFails, fireMapReq, h.rxValid, h.tick, h.mapReqValid,
      refusesRequest_of_txServed h]
  change mergeEvent s.event (eventClear i) (eventSet s i) = _
  rw [hClear, hSet, mergeEvent_none]

/-- Such a cycle breaks no duty and leaves no offer outstanding. -/
theorem step_of_txServed {s : State} {i : Inputs} (h : TxServed s i) (rest : List Inputs) :
    step (s.fed (i :: rest)) = .next ((ordinaryAfter s i).fed rest) := by
  have hDuty : dutyBroken (s.fed (i :: rest)) i = none :=
    (dutyBroken_none_iff _ _).mpr ⟨offersKept_of_none i rfl, fun hValid => by
      simp [payloadOwed, (h.payloadTaken hValid).1]⟩
  have hNoByte : takesPayload (s.fed (i :: rest)) i = false := by simp [takesPayload, fireRx, h.rxValid]
  have hAfter : ordinaryAfter (s.fed (i :: rest)) i = (ordinaryAfter s i).fed rest :=
    congrArg (fun held => { ordinaryAfter s i with env := rest, held := held }) (heldAfter_of_txServed h)
  calc step (s.fed (i :: rest)) = .next (lockstep (s.fed (i :: rest)) i) :=
        stepIsTheLockstepCycle _ hDuty fun _ hTakes => absurd (hNoByte.symm.trans hTakes) nofun
    _ = .next ((ordinaryAfter s i).fed rest) := by rw [lockstep_of_not_rst h.rst, hAfter]

/-! ## Bytes taken by the sink -/

/-- The inputs take `s` to `t`, the sink takes these bytes meanwhile, and no bit of `EVENT` changes. -/
structure Sends (s : State) (is : List Inputs) (bs : List Byte) (t : State) : Prop where
  runs : Runs s is t
  sent : ∀ rest, sentBytes is.length (s.fed (is ++ rest)) = bs
  event : t.event = s.event

theorem Sends.refl (s : State) : Sends s [] [] s := ⟨Runs.refl s, fun _ => rfl, rfl⟩

theorem Sends.trans {s t u : State} {is js : List Inputs} {bs cs : List Byte} (h : Sends s is bs t)
    (h' : Sends t js cs u) : Sends s (is ++ js) (bs ++ cs) u where
  runs := h.runs.trans h'.runs
  sent rest := by
    rw [List.length_append, List.append_assoc, sentBytes_add _ _ (h.runs (js ++ rest)), h.sent, h'.sent]
  event := h'.event.trans h.event

theorem sends_cycle {s : State} {i : Inputs} (h : TxServed s i) :
    Sends s [i] (if fireTx s i then [txByteOffered s i] else []) (ordinaryAfter s i) where
  runs rest := runFor_one (step_of_txServed h rest)
  sent rest := by
    have hStep := step_of_txServed h rest
    have hOut : ((ordinaryAfter s i).fed rest).out = outputs s i := rfl
    simp [sentBytes, hStep, hOut, outputs, h.rst, fireTx, currentInputs]
  event := event_of_txServed h

/-! ## The inputs of a transmission (R153, R293) -/

/-- A request and a ready sink. -/
def requestIn (flags cmd : Byte) (len : Half) : Inputs :=
  { txReqValid := true, txReqFlags := flags, txReqCmd := cmd, txReqLen := len, txReady := true }

/-- A ready sink and nothing else. -/
def sinkIn : Inputs := { txReady := true }

/-- A payload byte and a ready sink. -/
def payloadIn (p : Byte) : Inputs := { txPlValid := true, txPlData := p, txReady := true }

theorem transmission_eq (flags cmd : Byte) (payload : List Byte) :
    transmission flags cmd payload =
      [requestIn flags cmd (BitVec.ofNat 16 payload.length)] ++
        (List.replicate 5 sinkIn ++ (payload.map payloadIn ++ [sinkIn])) := rfl

theorem transmission_length (flags cmd : Byte) (payload : List Byte) :
    (transmission flags cmd payload).length = 7 + payload.length := by
  simp [transmission]
  omega

theorem txServed_requestIn {s : State} (flags cmd : Byte) {len : Half} (hState : s.tx.state = .idle)
    (hLen : len.toNat ≤ s.csr.maxPayload.toNat) : TxServed s (requestIn flags cmd len) :=
  ⟨rfl, rfl, rfl, rfl, rfl, fun _ => ⟨hState, hLen⟩, nofun⟩

theorem txServed_sinkIn (s : State) : TxServed s sinkIn := ⟨rfl, rfl, rfl, rfl, rfl, nofun, nofun⟩

theorem txServed_payloadIn {s : State} (p : Byte) (hState : s.tx.state = .payload) : TxServed s (payloadIn p) :=
  ⟨rfl, rfl, rfl, rfl, rfl, nofun, fun _ => ⟨hState, rfl⟩⟩

/-! ## The encoder cycle by cycle (R145 to R152) -/

/-- The encoder after a byte is taken. -/
theorem txAfter_of_byte {s : State} {i : Inputs} (h : fireTx s i = true) :
    txAfter s i =
      { s.tx with
        state := txStateAfterByte s
        cnt :=
          if s.tx.state = .payload then s.tx.cnt + 1
          else if s.tx.state = .cmd ∧ s.tx.len ≠ 0 then 0
          else s.tx.cnt
        acc := if txEntersXor s.tx.state then s.tx.acc ^^^ txByteOffered s i else s.tx.acc } := by
  simp [txAfter, acceptsRequest, fireTxReq_of_busy i (fireTx_notIdle h), h]

theorem sends_byte {s : State} {i : Inputs} (h : TxServed s i) (hFire : fireTx s i = true) :
    Sends s [i] [txByteOffered s i] (ordinaryAfter s i) := by
  have hSends := sends_cycle h
  rwa [if_pos hFire] at hSends

/-- Outside `TxIdle` and `TxPayload` the encoder offers a byte of its own (R144). -/
theorem fireTx_sinkIn {s : State} (hIdle : s.tx.state ≠ .idle) (hPayload : s.tx.state ≠ .payload) :
    fireTx s sinkIn = true := by
  cases hState : s.tx.state with
  | idle => exact absurd hState hIdle
  | payload => exact absurd hState hPayload
  | start | flags | lenLo | lenHi | cmd | chk => simp [fireTx, txOffers, hState, sinkIn]

/-- A byte of the encoder's own is taken by a ready sink. -/
theorem sends_ownByte {s : State} (hIdle : s.tx.state ≠ .idle) (hPayload : s.tx.state ≠ .payload) :
    ∃ t, Sends s [sinkIn] [txByteOffered s sinkIn] t ∧
      t.tx =
        { s.tx with
          state := txStateAfterByte s
          cnt := if s.tx.state = .cmd ∧ s.tx.len ≠ 0 then 0 else s.tx.cnt
          acc := if txEntersXor s.tx.state then s.tx.acc ^^^ txByteOffered s sinkIn else s.tx.acc } := by
  have hFire := fireTx_sinkIn hIdle hPayload
  refine ⟨ordinaryAfter s sinkIn, sends_byte (txServed_sinkIn s) hFire, (txAfter_of_byte hFire).trans ?_⟩
  rw [if_neg hPayload]

/-- An accepted request (R142, R145): no byte is sent, and the encoder is loaded. -/
theorem sends_request {s : State} (flags cmd : Byte) {len : Half} (hState : s.tx.state = .idle)
    (hLen : len.toNat ≤ s.csr.maxPayload.toNat) :
    ∃ t, Sends s [requestIn flags cmd len] [] t ∧
      t.tx = { state := .start, flags := sentFlags s flags, len := len, cmd := cmd, cnt := 0, acc := 0 } := by
  have hAccepts : acceptsRequest s (requestIn flags cmd len) = true := by
    have hFits : exceedsMax s (requestIn flags cmd len).txReqLen = false := (exceedsMax_eq_false_iff _ _).mpr hLen
    rw [acceptsRequest, hFits]
    simp [fireTxReq, txIsIdle, hState, requestIn]
  have hSends := sends_cycle (txServed_requestIn flags cmd hState hLen)
  rw [if_neg (by simp [fireTx, txOffers, hState])] at hSends
  exact ⟨_, hSends, if_pos hAccepts⟩

/-- The encoder has sent a packet's header and these bytes of its payload: it waits for the next one, or after the last
offers the checksum. -/
structure HasSent (s : State) (flags : Byte) (len : Half) (cmd : Byte) (ps : List Byte) : Prop where
  lenKept : s.tx.len = len
  accumulated : s.tx.acc = packetXor flags len cmd ps
  payloadDue : ps.length < len.toNat → s.tx.state = .payload ∧ s.tx.cnt.toNat = ps.length
  checksumDue : ps.length = len.toNat → s.tx.state = .chk

/-- The start byte, the flags and the two bytes of the length (R146 to R149). -/
theorem sends_flagsAndLength {s : State} {flags cmd : Byte} {len : Half}
    (h : s.tx = { state := .start, flags := flags, len := len, cmd := cmd, cnt := 0, acc := 0 }) :
    ∃ t, Sends s (List.replicate 4 sinkIn) [Config.startByte, flags, lowHalf len, highHalf len] t ∧
      t.tx =
        { state := .cmd, flags := flags, len := len, cmd := cmd, cnt := 0
          acc := flags ^^^ (lowHalf len ^^^ highHalf len) } := by
  obtain ⟨s₁, hStart, hTx₁⟩ := sends_ownByte (s := s) (by simp [h]) (by simp [h])
  simp only [h, txStateAfterByte, txEntersXor, txByteOffered] at hStart hTx₁
  obtain ⟨s₂, hFlags, hTx₂⟩ := sends_ownByte (s := s₁) (by simp [hTx₁]) (by simp [hTx₁])
  simp only [hTx₁, txStateAfterByte, txEntersXor, txByteOffered] at hFlags hTx₂
  obtain ⟨s₃, hLow, hTx₃⟩ := sends_ownByte (s := s₂) (by simp [hTx₂]) (by simp [hTx₂])
  simp only [hTx₂, txStateAfterByte, txEntersXor, txByteOffered] at hLow hTx₃
  obtain ⟨s₄, hHigh, hTx₄⟩ := sends_ownByte (s := s₃) (by simp [hTx₃]) (by simp [hTx₃])
  simp only [hTx₃, txStateAfterByte, txEntersXor, txByteOffered] at hHigh hTx₄
  refine ⟨s₄, hStart.trans (hFlags.trans (hLow.trans hHigh)), hTx₄.trans ?_⟩
  simp [BitVec.xor_assoc]

theorem sends_command {s : State} {flags cmd : Byte} {len : Half}
    (h : s.tx =
      { state := .cmd, flags := flags, len := len, cmd := cmd, cnt := 0
        acc := flags ^^^ (lowHalf len ^^^ highHalf len) }) :
    ∃ t, Sends s [sinkIn] [cmd] t ∧ HasSent t flags len cmd [] := by
  obtain ⟨t, hCmd, hTx⟩ := sends_ownByte (s := s) (by simp [h]) (by simp [h])
  simp only [h, txStateAfterByte, txEntersXor, txByteOffered, if_true, ite_self, ← packetXor_nil] at hCmd hTx
  refine ⟨t, hCmd, ?_⟩
  by_cases hEmpty : len = 0
  · rw [if_pos hEmpty] at hTx
    constructor <;> simp [hTx, hEmpty]
  · rw [if_neg hEmpty] at hTx
    have hPositive : len.toNat ≠ 0 := fun hZero => hEmpty (BitVec.eq_of_toNat_eq hZero)
    constructor <;> simp [hTx, hPositive.symm]

/-- One payload byte more passes from the client to the sink (R151). -/
theorem sends_payloadByte {s : State} {flags cmd : Byte} {len : Half} {ps : List Byte} (p : Byte)
    (h : HasSent s flags len cmd ps) (hLimit : len.toNat ≤ Config.maxPayloadLimit) (hMore : ps.length < len.toNat) :
    ∃ t, Sends s [payloadIn p] [p] t ∧ HasSent t flags len cmd (ps ++ [p]) := by
  obtain ⟨hState, hCnt⟩ := h.payloadDue hMore
  have hFire : fireTx s (payloadIn p) = true := by simp [fireTx, txOffers, hState, payloadIn]
  have hByte : txByteOffered s (payloadIn p) = p := by simp [txByteOffered, hState, payloadIn]
  have hSends := sends_byte (txServed_payloadIn p hState) hFire
  have hTx : (ordinaryAfter s (payloadIn p)).tx = _ := txAfter_of_byte hFire
  rw [hByte] at hSends hTx
  simp only [hState, txStateAfterByte, txEntersXor, if_true, hCnt, h.lenKept] at hTx
  refine ⟨_, hSends, ?_⟩
  constructor
  · rw [hTx]
  · rw [hTx, packetXor_append, ← h.accumulated]
  · intro hDue
    rw [List.length_append, List.length_singleton] at hDue ⊢
    rw [hTx]
    exact ⟨if_neg (by omega), (toNat_idx_succ (by omega)).trans (by rw [hCnt])⟩
  · intro hDone
    rw [List.length_append, List.length_singleton] at hDone
    rw [hTx]
    exact if_pos hDone

/-- The rest of the payload, byte by byte. -/
theorem sends_payload {s : State} {flags cmd : Byte} {len : Half} {ps : List Byte} (qs : List Byte)
    (h : HasSent s flags len cmd ps) (hLimit : len.toNat ≤ Config.maxPayloadLimit)
    (hLen : ps.length + qs.length = len.toNat) :
    ∃ t, Sends s (qs.map payloadIn) qs t ∧ HasSent t flags len cmd (ps ++ qs) := by
  induction qs generalizing s ps with
  | nil => exact ⟨s, Sends.refl s, by rwa [List.append_nil]⟩
  | cons q qs ih =>
    rw [List.length_cons] at hLen
    obtain ⟨u, hByte, hTaken⟩ := sends_payloadByte q h hLimit (by omega)
    obtain ⟨t, hRest, hAll⟩ := ih hTaken (by rw [List.length_append, List.length_singleton]; omega)
    rw [List.append_assoc] at hAll
    exact ⟨t, hByte.trans hRest, hAll⟩

/-- The checksum byte ends the packet (R152). -/
theorem sends_checksum {s : State} {flags cmd : Byte} {len : Half} {ps : List Byte} (h : HasSent s flags len cmd ps)
    (hDone : ps.length = len.toNat) :
    ∃ t, Sends s [sinkIn] [packetXor flags len cmd ps] t ∧ t.tx.state = .idle := by
  have hState := h.checksumDue hDone
  obtain ⟨t, hChk, hTx⟩ := sends_ownByte (s := s) (by simp [hState]) (by simp [hState])
  simp only [hState, txStateAfterByte, txByteOffered, h.accumulated] at hChk hTx
  exact ⟨t, hChk, by rw [hTx]⟩

/-! ## Whole packets (R153, R154) -/

/-- An accepted request is sent as its packet, and the encoder is idle again. -/
theorem sends_packet {s : State} (flags cmd : Byte) {payload : List Byte} (hInv : Inv s) (hState : s.tx.state = .idle)
    (hLen : payload.length ≤ s.csr.maxPayload.toNat) :
    ∃ t, Sends s (transmission flags cmd payload) (wirePacket (sentFlags s flags) cmd payload) t ∧
      t.tx.state = .idle := by
  have hCap : payload.length ≤ Config.maxPayloadLimit :=
    Nat.le_trans hLen (Nat.le_trans hInv.maxPayload hInv.params.capLimit)
  have hNat : (BitVec.ofNat 16 payload.length).toNat = payload.length := by
    have hMax := s.csr.maxPayload.isLt
    exact (BitVec.toNat_ofNat _ _).trans (Nat.mod_eq_of_lt (by omega))
  obtain ⟨s₁, hRequest, hTx₁⟩ := sends_request flags cmd hState (by rwa [hNat])
  obtain ⟨s₂, hHeader, hTx₂⟩ := sends_flagsAndLength hTx₁
  obtain ⟨s₃, hCmd, hSent₃⟩ := sends_command hTx₂
  obtain ⟨s₄, hPayload, hSent₄⟩ := sends_payload payload hSent₃ (by rwa [hNat])
    (by rw [hNat, List.length_nil, Nat.zero_add])
  rw [List.nil_append] at hSent₄
  obtain ⟨t, hChk, hIdle⟩ := sends_checksum hSent₄ hNat.symm
  exact ⟨t, hRequest.trans (hHeader.trans (hCmd.trans (hPayload.trans hChk))), hIdle⟩

/-- The bytes of a transmission with no input after it. -/
theorem Sends.sentBytes_eq {s t : State} {is : List Inputs} {bs : List Byte} (h : Sends s is bs t) :
    sentBytes is.length (s.fed is) = bs := by
  have hSent := h.sent []
  rwa [List.append_nil] at hSent

theorem sentBytes_transmission {s : State} (flags cmd : Byte) {payload : List Byte} (hInv : Inv s)
    (hState : s.tx.state = .idle) (hLen : payload.length ≤ s.csr.maxPayload.toNat) :
    sentBytes (7 + payload.length) (s.fed (transmission flags cmd payload)) =
      wirePacket (sentFlags s flags) cmd payload := by
  obtain ⟨t, hSends, -⟩ := sends_packet flags cmd hInv hState hLen
  rw [← transmission_length flags cmd payload]
  exact hSends.sentBytes_eq

/-- Settles O59: request, header, payload and checksum, each by the state that sends it (`sends_packet`). -/
theorem requestIsSentAsItsPacket : Obligations.RequestIsSentAsItsPacket := by
  intro s flags cmd payload hInv hState hLen
  obtain ⟨t, hSends, hIdle⟩ := sends_packet flags cmd hInv hState hLen
  exact ⟨sentBytes_transmission flags cmd hInv hState hLen, t.fed [], hSends.runs.runInputs_eq, hIdle, hSends.event⟩

/-- Settles O60: what is sent is a packet on the wire (`sentBytes_transmission`), and such a packet is delivered unchanged
(`receives_validPacket`). -/
theorem roundTripDeliversTheRequest : Obligations.RoundTripDeliversTheRequest := by
  intro s r flags cmd payload hInv hInv' hIdle hState hPending hLen hLen'
  have hReady := ReadyToReceive.of_inv hInv' hState hPending
  obtain ⟨t, hRun, hDelivered⟩ := receives_validPacket (sentFlags s flags) cmd hReady hLen'
  obtain ⟨hNat, -⟩ := toNat_length_of_ready hReady hLen'
  rw [sentBytes_transmission flags cmd hInv hIdle hLen]
  exact ⟨t.fed [], hRun.runs.runInputs_eq, hDelivered.pending, hDelivered.flagsShown,
    (congrArg BitVec.toNat hDelivered.lenShown).trans hNat, hDelivered.cmdShown, hDelivered.stored⟩

end Sys2Proof.Machine
end

section
/-! PROOFS of the statements of spec/42_command_codes.md: a command byte is data, so each unit that holds it holds it as it
came (R161). -/

namespace Sys2Proof.Machine

/-- The framer stores a command byte whatever its value and neither leaves the packet nor records a drop, with or without a
payload to follow (R121, R122). -/
theorem rxAfter_takes_command {s : State} {i : Inputs} (hState : s.rx.state = .readCommand) (hFire : fireRx s i = true) :
    (rxAfter s i).cmd = i.rxData ∧ (rxAfter s i).state ≠ .waitStart ∧ (rxAfter s i).lastDrop = s.rx.lastDrop := by
  rw [rxAfter_readCommand hFire hState]
  split
  case isTrue => exact ⟨rfl, nofun, rfl⟩
  case isFalse => exact ⟨rfl, nofun, rfl⟩

/-- A request within `MAX_PAYLOAD` is accepted, with no condition on its command (R142). -/
theorem acceptsRequest_of_fits {s : State} {i : Inputs} (hFire : fireTxReq s i = true)
    (hLen : i.txReqLen.toNat ≤ s.csr.maxPayload.toNat) : acceptsRequest s i = true := by
  rw [acceptsRequest, hFire, (exceedsMax_eq_false_iff _ _).mpr hLen]
  rfl

/-- An accepted request's command is latched as presented (R142). -/
theorem txAfter_cmd_of_accepts {s : State} {i : Inputs} (h : acceptsRequest s i = true) :
    (txAfter s i).cmd = i.txReqCmd := by
  rw [txAfter, if_pos h]

/-- In `TxCmd` the latched command byte stands on the wire, taken or not (R144, R150). -/
theorem outputs_offer_command {s : State} {i : Inputs} (hRst : i.rst = false) (hState : s.tx.state = .cmd) :
    (outputs s i).txValid = true ∧ (outputs s i).txData = s.tx.cmd := by
  rw [outputs_txValid, outputs_txData, hState, hRst]
  exact ⟨rfl, rfl⟩

/-- Settles O18: framer and encoder each store the byte they are given (`rxAfter_takes_command`, `txAfter_cmd_of_accepts`),
and the ports show what is stored (`step_out`). -/
theorem everyCommandByteIsCarriedUnchanged : Obligations.EveryCommandByteIsCarriedUnchanged := by
  intro s t i hi hStep hRst
  subst hi
  have hOut := step_out hStep
  obtain ⟨rfl, -⟩ := step_next_lockstep hStep
  rw [hOut, lockstep_of_not_rst hRst]
  exact ⟨rxAfter_takes_command, rfl, fun hFire hLen => txAfter_cmd_of_accepts (acceptsRequest_of_fits hFire hLen),
    outputs_offer_command hRst⟩

end Sys2Proof.Machine
end

section
/-! PROOFS of the statements of spec/43_pixel_mapper.md: what each row of the mapper answers (R192, R195 to R203), the map
of the two matrix modes (R204, R205) and the scaler (R206, R207). -/

namespace Sys2Proof.Machine

/-! ## Beats in the registers (R193, R203) -/

/-- A beat whose values survive the widths of the registers stands there as it is (R12). -/
theorem presents_load {m : MapUnit} {b : Beat}
    (h : (m.load b).strip.toNat = b.strip ∧ (m.load b).pos.toNat = b.pos ∧ (m.load b).addr.toNat = b.addr) :
    Presents (m.load b) m.w m.n b :=
  ⟨rfl, h.1, h.2.1, h.2.2, rfl, rfl, rfl, rfl⟩

theorem presents_error (m : MapUnit) (code : Byte) : Presents (m.load (Beat.error code)) m.w m.n (Beat.error code) :=
  presents_load ⟨rfl, rfl, rfl⟩

theorem outsideMapKept_withBeat (s : State) (b : Beat) : OutsideMapKept s (s.withBeat b) :=
  ⟨rfl, rfl, rfl, rfl, rfl, rfl, rfl⟩

theorem event_withBeat_ok {s : State} {b : Beat} (h : b.err = Config.errOk) : (s.withBeat b).event = s.event := by
  rw [withBeat_ok s b h, State.setMap_event]

theorem event_withBeat_error (s : State) {code : Byte} (h : code ≠ Config.errOk) :
    (s.withBeat (Beat.error code)).event = s.event ||| eventMapErr := by
  simp [State.withBeat, Beat.error, h]

theorem even_of_folded {s : State} (hMode : s.csr.mode = .folded) (hValid : cfgValid s = true) : widthOf s % 2 = 0 := by
  rw [cfgValid, hMode] at hValid
  exact even_of_geometryValid_folded hValid

/-! ## The rows with a range check (R196, R197, R199, R200) -/

/-- A row of the map is a range check: the error beat 0x04 where it fails, else the row's own beat, which fits the beat
registers. -/
theorem rangeCheckedRow_completes {s : State} {i : Instr} {fails : Prop} [Decidable fails] {b : Beat}
    (hExec : exec i s = .next (if fails then errorBeat Config.errInvalidParam s
      else loadBeat b.strip b.pos b.addr b.last Config.errOk s))
    (hErr : b.err = Config.errOk)
    (hFits : ¬ fails → (s.map.load b).strip.toNat = b.strip ∧ (s.map.load b).pos.toNat = b.pos ∧
      (s.map.load b).addr.toNat = b.addr) :
    ∃ t, exec i s = .next t ∧ OutsideMapKept s t ∧ RxbufKept s t ∧
      (if fails then Presents t.map s.map.w s.map.n (Beat.error Config.errInvalidParam) ∧ t.event = s.event ||| eventMapErr
      else Presents t.map s.map.w s.map.n b ∧ t.event = s.event) := by
  by_cases hFails : fails
  · have hCode : Config.errInvalidParam ≠ Config.errOk := by decide
    rw [if_pos hFails, errorBeat_eq _ _ hCode] at hExec
    simp only [if_pos hFails]
    exact ⟨_, hExec, outsideMapKept_withBeat s _, rxbufKept_refl s, presents_error s.map _, event_withBeat_error s hCode⟩
  · rw [if_neg hFails, loadBeat_eq, ← hErr, ← withBeat_ok s b hErr] at hExec
    simp only [if_neg hFails]
    exact ⟨_, hExec, outsideMapKept_withBeat s _, rxbufKept_refl s, presents_load (hFits hFails), event_withBeat_ok hErr⟩

/-- Settles O40: both rows are range checks, and a pixel that passes is one of the valid geometry (`load_pixel_toNat`). -/
theorem mapStripRowsComplete : Obligations.MapStripRowsComplete := by
  intro s strip l hMode hValid
  have hStrips : 0 < stripsOf s := by
    rw [cfgValid, hMode] at hValid
    exact (of_decide_eq_true hValid).1
  constructor
  · refine rangeCheckedRow_completes (b := Beat.pixel (widthOf s) strip.toNat l.toNat) rfl rfl fun hIn => ?_
    obtain ⟨hStrip, hPos⟩ := not_or.mp hIn
    exact load_pixel_toNat s.map true hValid (Nat.not_le.mp hStrip) (Nat.not_le.mp hPos)
  · refine rangeCheckedRow_completes
      (b := { strip := 0, pos := l.toNat, addr := l.toNat, last := decide (stripsOf s = 1), err := Config.errOk })
      rfl rfl fun hIn => ?_
    simpa [Beat.pixel] using load_pixel_toNat s.map (decide (stripsOf s = 1)) hValid hStrips (Nat.not_le.mp hIn)

/-- Settles O41: both rows are range checks; a logical index in range has its row and column in the matrix. -/
theorem mapMatrixRowsComplete : Obligations.MapMatrixRowsComplete := by
  intro s strip l w n hw hn hValid
  subst hw hn
  refine ⟨fun _ => ?_, fun hMode => ?_⟩
  · refine rangeCheckedRow_completes (b := Beat.pixel (widthOf s) (l.toNat / widthOf s) (l.toNat % widthOf s))
      rfl rfl fun hIn => ?_
    have hl : l.toNat < widthOf s * stripsOf s := Nat.not_le.mp hIn
    exact load_pixel_toNat s.map true hValid (Nat.div_lt_of_lt_mul hl) (Nat.mod_lt _ (Nat.pos_of_lt_mul_right hl))
  · have hEven : widthOf s % 2 = 0 := even_of_folded hMode hValid
    have hRow : exec (.mapFold strip l) s = .next (if l.toNat ≥ widthOf s / 2 * (2 * stripsOf s)
        then errorBeat Config.errInvalidParam s
        else loadBeat (foldPixel (widthOf s) l.toNat).1 (foldPixel (widthOf s) l.toNat).2
          ((foldPixel (widthOf s) l.toNat).1 * widthOf s + (foldPixel (widthOf s) l.toNat).2) true Config.errOk s) := rfl
    obtain ⟨t, hExec, hOutside, hBuf, hBeat⟩ := rangeCheckedRow_completes
      (b := Beat.pixel (widthOf s) (foldPixel (widthOf s) l.toNat).1 (foldPixel (widthOf s) l.toNat).2)
      hRow rfl fun hIn => by
        obtain ⟨hStrip, hPos⟩ := foldPixel_inRange hEven ((Nat.not_le.mp hIn).trans_eq (fold_pixels hEven))
        exact load_pixel_toNat s.map true hValid hStrip hPos
    refine ⟨t, hExec, hOutside, hBuf, ?_⟩
    split at hBeat
    case isTrue hOut => rwa [if_pos hOut]
    case isFalse hIn =>
      rw [if_neg hIn]
      exact ⟨_, _, _, rfl, rfl, rfl, hBeat⟩

/-! ## An accepted request (R192, R194, R203) -/

theorem exec_mapAccept_eq (s : State) (strip : Byte) (l : Half) :
    exec (.mapAccept strip l) s =
      .next ((latchGeometry s).withBeat (mapBeatOf s.csr.mode (widthOf s) (stripsOf s) strip l.toNat)) :=
  congrArg Host.Outcome.next (applyMapRow_eq strip l (latchGeometry s))

theorem mapBeatOf_of_invalid {mode : MapMode} {w n : Nat} (strip : Byte) (l : Nat) (h : geometryValid mode w n = false) :
    mapBeatOf mode w n strip l = Beat.error Config.errConfig := by
  unfold mapBeatOf
  rw [if_neg (by simp [h])]

/-- Under a valid geometry no row answers with the configuration error: each is a range check. -/
theorem mapBeatOf_err_ne_config {mode : MapMode} {w n : Nat} (strip : Byte) (l : Nat) (h : geometryValid mode w n = true) :
    (mapBeatOf mode w n strip l).err ≠ Config.errConfig := by
  have hOk : Config.errOk ≠ Config.errConfig := by decide
  have hParam : Config.errInvalidParam ≠ Config.errConfig := by decide
  unfold mapBeatOf
  rw [if_pos h]
  cases mode with
  | reserved => cases h
  | flat | folded =>
    simp only
    split
    exacts [hOk, hParam]
  | strip =>
    simp only
    split <;> split
    exacts [hOk, hParam, hOk, hParam]

theorem mapBeatOf_err_config_iff (mode : MapMode) (w n : Nat) (strip : Byte) (l : Nat) :
    geometryValid mode w n = false ↔ (mapBeatOf mode w n strip l).err = Config.errConfig := by
  refine ⟨fun h => by rw [mapBeatOf_of_invalid strip l h]; rfl, fun h => ?_⟩
  by_contra hValid
  exact mapBeatOf_err_ne_config strip l (Bool.eq_true_of_not_eq_false hValid) h

theorem mapBeatOf_ok_or_error (mode : MapMode) (w n : Nat) (strip : Byte) (l : Nat) :
    (mapBeatOf mode w n strip l).err = Config.errOk ∨
      ∃ code, (code = Config.errInvalidParam ∨ code = Config.errConfig) ∧ mapBeatOf mode w n strip l = Beat.error code := by
  obtain hError | ⟨hOk, -⟩ | ⟨-, -, -, hBeat⟩ := mapBeatOf_cases mode w n strip l
  · exact .inr hError
  · exact .inl hOk
  · exact .inl (by rw [hBeat]; rfl)

/-- Settles O44: the beat of a request is without error or is `Beat.error` (`mapBeatOf_ok_or_error`). -/
theorem errorBeatsAreEmptyAndLast : Obligations.ErrorBeatsAreEmptyAndLast := by
  intro s strip l
  refine ⟨_, exec_mapAccept_eq s strip l, outsideMapKept_withBeat (latchGeometry s) _, rxbufKept_refl s,
    mapBeatOf_err_config_iff _ _ _ strip l.toNat, ?_⟩
  obtain hOk | ⟨code, hCode, hBeat⟩ := mapBeatOf_ok_or_error s.csr.mode (widthOf s) (stripsOf s) strip l.toNat
  · exact .inl ⟨hOk, event_withBeat_ok hOk⟩
  · have hNe : code ≠ Config.errOk := by rcases hCode with rfl | rfl <;> decide
    rw [hBeat]
    exact .inr ⟨hCode, event_withBeat_error (latchGeometry s) hNe, presents_error (latchGeometry s).map code⟩

theorem geometryValid_iff (mode : MapMode) (w n : Nat) :
    geometryValid mode w n = true ↔
      (1 ≤ n ∧ n ≤ 16 ∧ w ≥ 1 ∧ n * w ≤ 65535) ∧ (mode = .folded → w % 2 = 0) ∧ mode ≠ .reserved := by
  unfold geometryValid
  cases mode with
  | reserved => simp
  | strip | flat | folded =>
    simp only [Bool.and_eq_true, decide_eq_true_eq]
    simp [Config.maxStrips, Config.maxPixels]

theorem statusWord_cfgValid (s : State) : (statusWord s).getLsbD 8 = cfgValid s := by
  simp only [statusWord, BitVec.getLsbD_setWidth, BitVec.getLsbD_append]
  simp

/-- Settles O38: the formula is `geometryValid`, and an invalid geometry answers every request with `Beat.error`. -/
theorem cfgValidIsTheGeometryCheck : Obligations.CfgValidIsTheGeometryCheck := by
  refine fun s => ⟨?_, statusWord_cfgValid s, fun hInvalid strip l =>
    ⟨_, exec_mapAccept_eq s strip l, (mapBeatOf_err_config_iff _ _ _ strip l.toNat).mp hInvalid⟩⟩
  rw [cfgValid, geometryValid_iff]
  cases s.csr.mode <;> simp

/-- Settles O42: both rows are the configuration error beat; without `CFG_VALID` the decoder reads no other row. -/
theorem mapConfigurationErrorsComplete : Obligations.MapConfigurationErrorsComplete := by
  intro s strip l i hi
  have hCode : Config.errConfig ≠ Config.errOk := by decide
  have hExec : exec i s = .next (s.withBeat (Beat.error Config.errConfig)) := by
    rw [← errorBeat_eq _ _ hCode]
    rcases hi with rfl | rfl <;> rfl
  refine ⟨⟨_, hExec, outsideMapKept_withBeat s _, rxbufKept_refl s, presents_error s.map _, event_withBeat_error s hCode⟩,
    fun mode => decode_mapRowWord mode strip l false, decode_mapRowWord 3 strip l true, fun hMode => ?_⟩
  rw [cfgValid, hMode]
  rfl

/-! ## A beat taken (R198, R202) -/

theorem outsideMapKept_setMap (s : State) (m : MapUnit) : OutsideMapKept s (s.setMap m) :=
  ⟨rfl, rfl, rfl, rfl, rfl, rfl, rfl⟩

theorem load_continuationBeat (m : MapUnit) :
    m.load (continuationBeat m) = { m with
      valid := true, strip := m.strip + 1, addr := m.addr + m.w, last := decide (m.strip.toNat + 2 = m.n.toNat),
      err := 0 } := by
  simp [MapUnit.load, continuationBeat, BitVec.ofNat_add, Config.errOk]

/-- Settles O43: a beat taken changes the mapper alone (`exec_mapBeat`). -/
theorem mapBeatsComplete : Obligations.MapBeatsComplete := by
  intro s
  refine ⟨⟨s.setMap (s.map.load (continuationBeat s.map)), rfl, outsideMapKept_setMap s _, rxbufKept_refl s, rfl,
    load_continuationBeat s.map⟩, ⟨_, exec_mapBeat rfl, outsideMapKept_setMap s _, rxbufKept_refl s, rfl, ?_, ?_⟩⟩
  · intro hLast
    rw [State.setMap_map, if_pos hLast]
  · intro hLast
    rw [if_neg (by simp [hLast])]
    rfl

/-! ## The pixel of a request in the matrix modes (R204, R205) -/

/-- A request whose beat is a pixel of the valid geometry is answered with that pixel exactly. -/
theorem mapAccept_pixel {s : State} {strip : Byte} {l : Half} {k p : Nat} (hValid : cfgValid s = true)
    (hStrip : k < stripsOf s) (hPos : p < widthOf s)
    (hBeat : mapBeatOf s.csr.mode (widthOf s) (stripsOf s) strip l.toNat = Beat.pixel (widthOf s) k p) :
    ∃ t, exec (.mapAccept strip l) s = .next t ∧ t.map.err = 0 ∧ t.map.strip.toNat = k ∧ t.map.pos.toNat = p ∧
      t.map.addr.toNat = k * widthOf s + p := by
  refine ⟨_, exec_mapAccept_eq s strip l, ?_⟩
  rw [hBeat]
  exact ⟨rfl, load_pixel_toNat (latchGeometry s).map true hValid hStrip hPos⟩

/-- Settles O46: the strip is the quotient and the position the remainder of the division by `W`. -/
theorem flatMapIsTheIdentity : Obligations.FlatMapIsTheIdentity := by
  intro s strip l hMode hValid hl
  have hGeometry : geometryValid s.csr.mode (widthOf s) (stripsOf s) = true := hValid
  have hBeat : mapBeatOf s.csr.mode (widthOf s) (stripsOf s) strip l.toNat =
      Beat.pixel (widthOf s) (l.toNat / widthOf s) (l.toNat % widthOf s) := by
    rw [hMode] at hGeometry ⊢
    exact (if_pos hGeometry).trans (if_pos hl)
  obtain ⟨t, hExec, hErr, hStrip, hPos, hAddr⟩ := mapAccept_pixel hValid (Nat.div_lt_of_lt_mul hl)
    (Nat.mod_lt _ (Nat.pos_of_lt_mul_right hl)) hBeat
  exact ⟨t, hExec, hErr, BitVec.eq_of_toNat_eq (hAddr.trans (Nat.div_add_mod' _ _)), hStrip, hPos⟩

/-- The logical index of column `c` of the row `2k + half` of the folded matrix (R200). -/
def foldIndex (w k half c : Nat) : Nat := (2 * k + half) * (w / 2) + c

/-- The position on its strip of column `c` of such a row: forward from the start or backward from the end (R200). -/
def foldColumn (w half c : Nat) : Nat := if half = 0 then c else w - 1 - c

theorem div_mod_of_pixelIndex {w p : Nat} (k : Nat) (h : p < w) : (k * w + p) / w = k ∧ (k * w + p) % w = p :=
  (Nat.div_mod_unique (by omega)).mpr ⟨by rw [Nat.mul_comm, Nat.add_comm], h⟩

theorem foldPixel_foldIndex {w half c : Nat} (k : Nat) (hHalf : half < 2) (hc : c < w / 2) :
    foldPixel w (foldIndex w k half c) = (k, foldColumn w half c) := by
  obtain ⟨hRow, hCol⟩ := div_mod_of_pixelIndex (2 * k + half) hc
  have hParity : (2 * k + half) % 2 = half := by omega
  have hStrip : (2 * k + half) / 2 = k := by omega
  rw [foldPixel, foldIndex, hRow, hCol, foldPosition, hParity, hStrip, foldColumn]

theorem unfoldIndex_pixel {w half c : Nat} (k : Nat) (hEven : w % 2 = 0) (hHalf : half < 2) (hc : c < w / 2) :
    unfoldIndex w (k * w + foldColumn w half c) = foldIndex w k half c := by
  have hPos : foldColumn w half c < w := by unfold foldColumn; split <;> omega
  obtain ⟨hStrip, hCol⟩ := div_mod_of_pixelIndex k hPos
  simp only [unfoldIndex, hStrip, hCol, foldIndex]
  obtain rfl | rfl : half = 0 ∨ half = 1 := by omega
  · rw [foldColumn, if_pos rfl, if_pos hc, Nat.add_zero]
  · rw [foldColumn, if_neg one_ne_zero, if_neg (by omega), Nat.sub_sub_self (by omega)]

/-- Every logical index is in some row and column. -/
theorem exists_foldIndex {w : Nat} (l : Nat) (hw : 0 < w / 2) :
    ∃ k half c, half < 2 ∧ c < w / 2 ∧ l = foldIndex w k half c :=
  ⟨l / (w / 2) / 2, l / (w / 2) % 2, l % (w / 2), Nat.mod_lt _ (by omega), Nat.mod_lt _ hw, by
    rw [foldIndex, Nat.div_add_mod, Nat.div_add_mod']⟩

/-- Every position of a strip is that of a column in the forward or in the backward row. -/
theorem exists_foldColumn {w p : Nat} (hEven : w % 2 = 0) (hp : p < w) :
    ∃ half c, half < 2 ∧ c < w / 2 ∧ p = foldColumn w half c := by
  by_cases hFirst : p < w / 2
  · exact ⟨0, p, by omega, hFirst, rfl⟩
  · refine ⟨1, w - 1 - p, by omega, by omega, ?_⟩
    rw [foldColumn, if_neg one_ne_zero, Nat.sub_sub_self (by omega)]

theorem foldIndex_lt {w n k half c : Nat} (hEven : w % 2 = 0) (hHalf : half < 2) (hc : c < w / 2) (hk : k < n) :
    foldIndex w k half c < w * n := by
  rw [← fold_pixels hEven, Nat.mul_comm]
  exact pixelIndex_lt (by omega) hc

/-- A request for a column of a row in range is answered with its pixel (R200). -/
theorem mapAccept_folded {s : State} (strip : Byte) {l : Half} {k half c : Nat} (hMode : s.csr.mode = .folded)
    (hValid : cfgValid s = true) (hHalf : half < 2) (hc : c < widthOf s / 2)
    (hIndex : l.toNat = foldIndex (widthOf s) k half c) (hl : l.toNat < widthOf s * stripsOf s) :
    k < stripsOf s ∧ foldColumn (widthOf s) half c < widthOf s ∧
    ∃ t, exec (.mapAccept strip l) s = .next t ∧ t.map.err = 0 ∧ t.map.strip.toNat = k ∧
      t.map.pos.toNat = foldColumn (widthOf s) half c ∧
      t.map.addr.toNat = k * widthOf s + foldColumn (widthOf s) half c := by
  have hEven : widthOf s % 2 = 0 := even_of_folded hMode hValid
  have hPixel : foldPixel (widthOf s) l.toNat = (k, foldColumn (widthOf s) half c) := by
    rw [hIndex, foldPixel_foldIndex k hHalf hc]
  obtain ⟨hStrip, hPos⟩ := foldPixel_inRange hEven hl
  rw [hPixel] at hStrip hPos
  refine ⟨hStrip, hPos, mapAccept_pixel hValid hStrip hPos ?_⟩
  have hGeometry : geometryValid s.csr.mode (widthOf s) (stripsOf s) = true := hValid
  rw [hMode] at hGeometry ⊢
  refine (if_pos hGeometry).trans ((if_pos hl).trans ?_)
  rw [hPixel]

/-- Settles O47: on rows and columns both directions are explicit (`foldPixel_foldIndex`, `unfoldIndex_pixel`), and every
index is in some row and column. -/
theorem foldedMapIsABijection : Obligations.FoldedMapIsABijection := by
  intro s strip hMode hValid
  have hEven : widthOf s % 2 = 0 := even_of_folded hMode hValid
  refine ⟨fun l hl => ?_, fun l k c hl hc => ⟨fun hIndex => ?_, fun hIndex => ?_⟩, fun a ha => ?_⟩
  · have hw : 0 < widthOf s := Nat.pos_of_lt_mul_right hl
    obtain ⟨k, half, c, hHalf, hc, hIndex⟩ := exists_foldIndex (w := widthOf s) l.toNat (by omega)
    obtain ⟨hStrip, hPos, t, hExec, hErr, -, -, hAddr⟩ := mapAccept_folded strip hMode hValid hHalf hc hIndex hl
    refine ⟨t, hExec, hErr, ?_, ?_⟩
    · rw [hAddr, Nat.mul_comm (widthOf s)]
      exact pixelIndex_lt hStrip hPos
    · rw [hAddr, unfoldIndex_pixel k hEven hHalf hc, hIndex]
  · obtain ⟨-, -, t, hExec, -, hStrip, hPos, -⟩ := mapAccept_folded (half := 0) strip hMode hValid (by omega) hc hIndex hl
    exact ⟨t, hExec, hStrip, hPos⟩
  · obtain ⟨-, -, t, hExec, -, hStrip, hPos, -⟩ := mapAccept_folded (half := 1) strip hMode hValid (by omega) hc hIndex hl
    exact ⟨t, hExec, hStrip, hPos⟩
  · have hStrip : a.toNat / widthOf s < stripsOf s := Nat.div_lt_of_lt_mul ha
    obtain ⟨half, c, hHalf, hc, hCol⟩ := exists_foldColumn hEven (Nat.mod_lt a.toNat (Nat.pos_of_lt_mul_right ha))
    have hPixel : a.toNat / widthOf s * widthOf s + foldColumn (widthOf s) half c = a.toNat := by
      rw [← hCol, Nat.div_add_mod']
    have hIndex : unfoldIndex (widthOf s) a.toNat = foldIndex (widthOf s) (a.toNat / widthOf s) half c := by
      rw [← unfoldIndex_pixel _ hEven hHalf hc, hPixel]
    have hl : unfoldIndex (widthOf s) a.toNat < widthOf s * stripsOf s := by
      rw [hIndex]
      exact foldIndex_lt hEven hHalf hc hStrip
    have hPixels : stripsOf s * widthOf s ≤ 65535 := (geometryValid_bounds hValid).2
    rw [Nat.mul_comm] at hPixels
    obtain ⟨i, hNat⟩ : ∃ i : Half, i.toNat = unfoldIndex (widthOf s) a.toNat :=
      ⟨BitVec.ofNat 16 (unfoldIndex (widthOf s) a.toNat), Nat.mod_eq_of_lt (by omega)⟩
    have hInside : i.toNat < widthOf s * stripsOf s := hNat ▸ hl
    obtain ⟨-, -, t, hExec, hErr, -, -, hAddr⟩ :=
      mapAccept_folded strip hMode hValid hHalf hc (hNat.trans hIndex) hInside
    exact ⟨i, t, hNat, hInside, hExec, hErr, BitVec.eq_of_toNat_eq (hAddr.trans hPixel)⟩

/-! ## The scaler (R206, R207) -/

/-- The product is below `2^16`, so the eight bits kept drop nothing (R206). -/
theorem toNat_scaleValue (v b : Byte) : (scaleValue v b).toNat = v.toNat * (b.toNat + 1) / 256 := by
  have hProduct : v.toNat * (b.toNat + 1) < 256 * 256 :=
    Nat.mul_lt_mul_of_lt_of_le v.isLt (Nat.succ_le_of_lt b.isLt) (by omega)
  rw [scaleValue, Nat.shiftRight_eq_div_pow, BitVec.toNat_ofNat]
  exact Nat.mod_eq_of_lt (Nat.div_lt_of_lt_mul hProduct)

/-- Settles O49: the operation writes `scale_out` alone, with the value of `toNat_scaleValue`. -/
theorem scaleIsExact : Obligations.ScaleIsExact := fun s v =>
  ⟨decode_scaleWord v, _, rfl, rfl, rxbufKept_refl s, toNat_scaleValue v s.csr.brightness⟩

theorem scaleValue_mono {v v' b b' : Byte} (hv : v ≤ v') (hb : b ≤ b') : scaleValue v b ≤ scaleValue v' b' := by
  rw [BitVec.le_def] at hv hb ⊢
  rw [toNat_scaleValue, toNat_scaleValue]
  exact Nat.div_le_div_right (Nat.mul_le_mul hv (Nat.succ_le_succ hb))

theorem scaleValue_full (v : Byte) : scaleValue v 255 = v := by
  apply BitVec.eq_of_toNat_eq
  rw [toNat_scaleValue]
  exact Nat.mul_div_cancel v.toNat (by decide : 0 < 256)

theorem scaleValue_off (v : Byte) : scaleValue v 0 = 0 := by
  apply BitVec.eq_of_toNat_eq
  rw [toNat_scaleValue]
  exact Nat.div_eq_of_lt (by simpa using v.isLt)

theorem scaleValue_zero (b : Byte) : scaleValue 0 b = 0 := by simp [scaleValue]

/-- Settles O50: `scaleValue v b ≤ v` is monotonicity in the brightness up to 255, where the scaler is exact. -/
theorem scaleProperties : Obligations.ScaleProperties :=
  ⟨scaleValue_full, scaleValue_off,
    fun v b => by
      have hMax : b ≤ 255 := by rw [BitVec.le_def]; exact Nat.le_of_lt_succ b.isLt
      simpa only [scaleValue_full] using scaleValue_mono (Nat.le_refl v.toNat) hMax,
    fun _ _ _ _ => scaleValue_mono, scaleValue_zero⟩

end Sys2Proof.Machine
end

section
/-! PROOFS of the statements of spec/43_pixel_mapper.md about whole broadcasts: cycles that serve the map client, chained
beat by beat over the strips of the geometry latched at acceptance (R197, R198, R289). -/

namespace Sys2Proof.Machine

/-! ## Beats taken by the map client (R61) -/

/-- The beat the registers hold. -/
def MapUnit.shown (m : MapUnit) : Beat :=
  { strip := m.strip.toNat, pos := m.pos.toNat, addr := m.addr.toNat, last := m.last, err := m.err }

theorem shown_of_presents {m : MapUnit} {w : Half} {n : BitVec 5} {b : Beat} (h : Presents m w n b) : m.shown = b := by
  obtain ⟨-, hStrip, hPos, hAddr, hLast, hErr, -, -⟩ := h
  rw [MapUnit.shown, hStrip, hPos, hAddr, hLast, hErr]

/-- The cycle brings nothing to framer and encoder, and a map request only while no beat is presented. -/
structure MapServed (s : State) (i : Inputs) : Prop where
  rst : i.rst = false
  rxValid : i.rxValid = false
  txReqValid : i.txReqValid = false
  txPlValid : i.txPlValid = false
  reqTaken : i.mapReqValid = true → s.map.valid = false

theorem runs_mapServed {s : State} {i : Inputs} (h : MapServed s i) : Runs s [i] (ordinaryAfter s i) := by
  have hReq : (i.mapReqValid && s.map.valid) = false := by
    cases hValid : i.mapReqValid with
    | false => rfl
    | true => exact h.reqTaken hValid
  refine runs_one h.rst h.txPlValid ?_ fun hTakes => ?_
  · rw [heldAfter_eq]
    simp [h.rst, h.rxValid, h.txReqValid, h.txPlValid, hReq, Held.none]
  · simp [takesPayload, fireRx, h.rxValid] at hTakes

theorem Runs.step_eq {s t : State} {i : Inputs} (h : Runs s [i] t) (rest : List Inputs) :
    step (s.fed (i :: rest)) = .next (t.fed rest) := by
  have hRun : runFor 1 (s.fed (i :: rest)) = .next (t.fed rest) := h rest
  unfold runFor at hRun
  split at hRun
  case h_1 u hStep => rw [hStep, ← hRun]; rfl
  case h_2 hStop => exact (hStop _ hRun).elim

theorem takenBeats_mapServed {s : State} {i : Inputs} (h : MapServed s i) (k : Nat) (rest : List Inputs) :
    takenBeats (k + 1) (s.fed (i :: rest)) =
      (if fireMapRsp s i then [s.map.shown] else []) ++ takenBeats k ((ordinaryAfter s i).fed rest) := by
  have hStep := (runs_mapServed h).step_eq rest
  have hOut : ((ordinaryAfter s i).fed rest).out = outputs s i := rfl
  simp only [takenBeats, hStep, hOut]
  rfl

/-! ## The beats of a broadcast (R197, R198) -/

/-- The beat of strip `k` in a broadcast of the logical index `l` to `n` strips of `w` pixels. -/
def broadcastBeat (w n l k : Nat) : Beat :=
  { strip := k, pos := l, addr := k * w + l, last := decide (k + 1 = n), err := Config.errOk }

theorem mapBeatOf_broadcast {w n l : Nat} (hValid : geometryValid .strip w n = true) (hl : l < w) :
    mapBeatOf .strip w n Config.broadcastStrip l = broadcastBeat w n l 0 := by
  have hLast : decide (n = 1) = decide (0 + 1 = n) := by
    rw [Nat.zero_add]
    exact decide_eq_decide.mpr eq_comm
  simp [mapBeatOf, hValid, hl, broadcastBeat, Beat.pixel, hLast]

/-- The geometry a broadcast has latched: a valid one, with the position inside a strip (R192, R197). -/
structure LatchedFor (w : Half) (n : BitVec 5) (l : Nat) : Prop where
  strips : n.toNat ≤ Config.maxStrips
  pixels : n.toNat * w.toNat ≤ Config.maxPixels
  inside : l < w.toNat

theorem presents_nextBroadcastBeat {m : MapUnit} {w : Half} {n : BitVec 5} {l k : Nat} (hLatched : LatchedFor w n l)
    (h : Presents m w n (broadcastBeat w.toNat n.toNat l k)) (hk : k + 1 < n.toNat) :
    Presents (m.load (continuationBeat m)) w n (broadcastBeat w.toNat n.toNat l (k + 1)) := by
  obtain ⟨-, hStrip, hPos, hAddr, -, -, rfl, rfl⟩ := h
  simp only [broadcastBeat] at hStrip hPos hAddr
  subst hStrip hPos
  obtain ⟨hStrip', hPos', hAddr'⟩ := load_continuation_toNat hk hLatched.strips hLatched.pixels hLatched.inside hAddr
  exact ⟨rfl, hStrip', hPos', hAddr', rfl, rfl, rfl, rfl⟩

/-- A cycle in which the map client takes a beat while a register is written. -/
def beatIn (l : Half) (w : BitVec 4 × Half) : Inputs :=
  { mapReqStrip := 0xFF, mapReqIndex := l, mapRspReady := true, csrValid := true, csrWe := true, csrAddr := w.1,
    csrWdata := w.2 }

/-- The cycle of the broadcast request, with a register written. -/
def broadcastIn (l : Half) (w : BitVec 4 × Half) : Inputs := { beatIn l w with mapReqValid := true }

theorem mapServed_beatIn (s : State) (l : Half) (w : BitVec 4 × Half) : MapServed s (beatIn l w) :=
  ⟨rfl, rfl, rfl, rfl, nofun⟩

theorem mapServed_broadcastIn {s : State} (l : Half) (w : BitVec 4 × Half) (h : s.map.valid = false) :
    MapServed s (broadcastIn l w) :=
  ⟨rfl, rfl, rfl, rfl, fun _ => h⟩

theorem fireMapRsp_beatIn {s : State} (l : Half) (w : BitVec 4 × Half) (h : s.map.valid = true) :
    fireMapRsp s (beatIn l w) = true := by
  rw [fireMapRsp, h]
  rfl

/-- A beat that is not the last is followed by its continuation, whatever is written (R198, R289). -/
theorem mapAfter_beatIn {s : State} (l : Half) (w : BitVec 4 × Half) (hValid : s.map.valid = true)
    (hLast : s.map.last = false) : mapAfter s (beatIn l w) = s.map.load (continuationBeat s.map) := by
  have hReq : fireMapReq s (beatIn l w) = false := rfl
  simp [mapAfter, hReq, fireMapRsp_beatIn l w hValid, hLast]

/-- From the beat of strip `k` on, the client takes the beats of the strips left, one each cycle. -/
theorem takenBeats_broadcast {w : Half} {n : BitVec 5} {l : Half} (hLatched : LatchedFor w n l.toNat)
    (ws : List (BitVec 4 × Half)) {s : State} {k : Nat} (hk : k + ws.length = n.toNat)
    (h : k < n.toNat → Presents s.map w n (broadcastBeat w.toNat n.toNat l.toNat k)) :
    takenBeats ws.length (s.fed (ws.map (beatIn l))) =
      (List.range' k ws.length).map (broadcastBeat w.toNat n.toNat l.toNat) := by
  induction ws generalizing s k with
  | nil => rfl
  | cons x ws ih =>
    rw [List.length_cons] at hk
    have hNow := h (by omega)
    have hValid : s.map.valid = true := hNow.1
    have hNext : k + 1 < n.toNat → Presents (ordinaryAfter s (beatIn l x)).map w n
        (broadcastBeat w.toNat n.toNat l.toNat (k + 1)) := fun hMore => by
      have hLast : s.map.last = decide (k + 1 = n.toNat) := congrArg Beat.last (shown_of_presents hNow)
      change Presents (mapAfter s (beatIn l x)) _ _ _
      rw [mapAfter_beatIn l x hValid (hLast.trans (decide_eq_false hMore.ne))]
      exact presents_nextBroadcastBeat hLatched hNow hMore
    rw [List.length_cons, List.map_cons, takenBeats_mapServed (mapServed_beatIn s l x),
      if_pos (fireMapRsp_beatIn l x hValid), shown_of_presents hNow, ih (by omega) hNext, List.range'_succ, List.map_cons,
      List.singleton_append]

theorem mapIdx_broadcastIn (l : Half) (x : BitVec 4 × Half) (ws : List (BitVec 4 × Half)) :
    ((x :: ws).mapIdx fun k w =>
      { mapReqValid := decide (k = 0), mapReqStrip := 0xFF, mapReqIndex := l, mapRspReady := true,
        csrValid := true, csrWe := true, csrAddr := w.1, csrWdata := w.2 }) =
      broadcastIn l x :: ws.map (beatIn l) := by
  rw [List.mapIdx_cons]
  refine congrArg (List.cons _) (List.ext_getElem (by simp) fun _ _ _ => ?_)
  simp [beatIn]

/-- The acceptance of a broadcast latches the geometry and loads the beat of strip 0 (R194, R197). -/
theorem presents_firstBroadcastBeat {s : State} {l : Half} (x : BitVec 4 × Half) (hMode : s.csr.mode = .strip)
    (hGeometry : cfgValid s = true) (hl : l.toNat < widthOf s) (hFree : s.map.valid = false) :
    Presents (ordinaryAfter s (broadcastIn l x)).map s.csr.physWidth s.csr.stripCount
      (broadcastBeat (widthOf s) (stripsOf s) l.toNat 0) := by
  have hReq : fireMapReq s (broadcastIn l x) = true := by
    rw [fireMapReq, hFree]
    rfl
  have hBeat : requestedBeat s (broadcastIn l x) = broadcastBeat (widthOf s) (stripsOf s) l.toNat 0 := by
    rw [cfgValid, hMode] at hGeometry
    rw [requestedBeat, hMode]
    exact mapBeatOf_broadcast hGeometry hl
  have hStrips : 0 < stripsOf s := ((geometryValid_iff _ _ _).mp hGeometry).1.1
  change Presents (mapAfter s (broadcastIn l x)) _ _ _
  rw [mapAfter, if_pos hReq, hBeat]
  exact presents_load (load_pixel_toNat { s.map with w := s.csr.physWidth, n := s.csr.stripCount } _ hGeometry hStrips hl)

/-- Settles O48: the acceptance shows no beat and loads that of strip 0, and each beat taken is followed by the next
(`takenBeats_broadcast`), from the latches alone. -/
theorem broadcastVisitsEveryStripInOrder : Obligations.BroadcastVisitsEveryStripInOrder := by
  intro s l ws hMode hValid hl hFree hLength
  obtain ⟨x, ws, rfl⟩ := List.exists_cons_of_length_eq_add_one hLength
  have hCount : ws.length = stripsOf s := Nat.succ.inj hLength
  obtain ⟨hStrips, hPixels⟩ := geometryValid_bounds hValid
  have hBeats := takenBeats_broadcast ⟨hStrips, hPixels, hl⟩ ws ((Nat.zero_add _).trans hCount) fun _ =>
    presents_firstBroadcastBeat x hMode hValid hl hFree
  have hNoBeat : fireMapRsp s (broadcastIn l x) = false := by
    rw [fireMapRsp, hFree]
    rfl
  rw [hCount, ← List.range_eq_range'] at hBeats
  rw [mapIdx_broadcastIn, takenBeats_mapServed (mapServed_broadcastIn l x hFree), hNoBeat, if_neg Bool.false_ne_true,
    List.nil_append]
  exact hBeats

end Sys2Proof.Machine
end

section
/-! PROOFS of the statements of spec/44_csr_access.md: the word each register reads as (R222 to R248), the writes that store
(R223 to R241), and the accesses that do nothing (R227 to R250). -/

namespace Sys2Proof.Machine

/-! ## Frames of the register accesses (R221) -/

theorem onlyReadData_driveReadData (v : Half) (s : State) : OnlyReadData v s (driveReadData v s) :=
  ⟨rfl, rxbufKept_refl s⟩

theorem onlyConfig_writeConfig (c : CsrUnit) (s : State) : OnlyConfig c s (writeConfig c s) :=
  ⟨rfl, rxbufKept_refl s⟩

/-! ## The register reads (R222 to R248) -/

theorem zero_append_eq_setWidth {k m : Nat} (x : BitVec m) : (0 : BitVec k) ++ x = x.setWidth (k + m) := by
  rw [BitVec.setWidth_eq_append (Nat.le_add_left m k)]
  simp

/-- A word that only a valid matrix mode gives (R51, R52), for a function of the mode that fits the word. -/
theorem toNat_matrixModeWord (s : State) {f : MapMode → Nat} (hFits : ∀ m, f m < 65536) :
    (if cfgValid s && isMatrixMode s.csr.mode then BitVec.ofNat 16 (f s.csr.mode) else 0).toNat =
      if cfgValid s = true ∧ s.csr.mode = .flat then f .flat
      else if cfgValid s = true ∧ s.csr.mode = .folded then f .folded else 0 := by
  cases cfgValid s with
  | false => simp
  | true => cases s.csr.mode <;> simp [isMatrixMode, hFits]

theorem toNat_matrixWidthWord (s : State) :
    (matrixWidthWord s).toNat = if cfgValid s = true ∧ s.csr.mode = .flat then widthOf s
      else if cfgValid s = true ∧ s.csr.mode = .folded then widthOf s / 2 else 0 := by
  have hFits (m : MapMode) : widthOf s / foldFactor m < 65536 :=
    Nat.lt_of_le_of_lt (Nat.div_le_self _ _) s.csr.physWidth.isLt
  rw [matrixWidthWord, toNat_matrixModeWord s hFits]
  simp only [foldFactor, Config.foldFlat, Config.foldSerpentine, Nat.div_one]

/-- Twice the 31 strips that `STRIP_COUNT` can hold fit the word. -/
theorem toNat_matrixHeightWord (s : State) :
    (matrixHeightWord s).toNat = if cfgValid s = true ∧ s.csr.mode = .flat then stripsOf s
      else if cfgValid s = true ∧ s.csr.mode = .folded then stripsOf s * 2 else 0 := by
  have hStrips : stripsOf s < 32 := s.csr.stripCount.isLt
  have hFits (m : MapMode) : stripsOf s * foldFactor m < 65536 := by
    cases m <;> simp only [foldFactor, Config.foldFlat, Config.foldSerpentine] <;> omega
  rw [matrixHeightWord, toNat_matrixModeWord s hFits]
  simp only [foldFactor, Config.foldFlat, Config.foldSerpentine, Nat.mul_one]

/-- The register reads, each with its address (R103). -/
def registerReads : List (Instr × BitVec 4) :=
  [(.csrRdCtrl, 0x0), (.csrRdMaxPayload, 0x1), (.csrRdChkerrCnt, 0x2), (.csrRdEvent, 0x3), (.csrRdIrqEn, 0x4),
    (.csrRdStatus, 0x5), (.csrRdMapMode, 0x6), (.csrRdPhysWidth, 0x7), (.csrRdStripCount, 0x8), (.csrRdBrightness, 0x9),
    (.csrRdMatrixWidth, 0xA), (.csrRdMatrixHeight, 0xB), (.csrRdLastDrop, 0xC), (.csrRdRsvdD, 0xD), (.csrRdRsvdE, 0xE),
    (.csrRdRsvdF, 0xF)]

theorem decodeCsr_of_mem_registerReads {i : Instr} {addr : BitVec 4} (d : Half) (h : (i, addr) ∈ registerReads) :
    decodeCsr addr.toNat d = i := by
  have hAll : ∀ r ∈ registerReads, decodeCsr r.2.toNat d = r.1 := by simp [registerReads, decodeCsr]
  exact hAll _ h

/-- A register read puts the word of its register on `csr_rdata` and does nothing else (R77, R221). -/
theorem registerRead_completes {i : Instr} {addr : BitVec 4} {v : Half} (s : State) (h : (i, addr) ∈ registerReads)
    (hWord : v = readRegister s addr) : ∃ t, exec i s = .next t ∧ OnlyReadData v s t := by
  rw [← decodeCsr_of_mem_registerReads 0 h, exec_csrRead, hWord]
  exact ⟨_, rfl, onlyReadData_driveReadData _ s⟩

/-- Settles O51: a read drives the word of its address (`registerRead_completes`), a narrow register's bits below zeros. -/
theorem registerReadsComplete : Obligations.RegisterReadsComplete := by
  intro s
  refine ⟨fun i addr d hMem => ?_,
    registerRead_completes (addr := 0x0) s (by decide) (zero_append_eq_setWidth _),
    registerRead_completes (addr := 0x1) s (by decide) (zero_append_eq_setWidth _),
    registerRead_completes (addr := 0x2) s (by decide) rfl,
    registerRead_completes (addr := 0x3) s (by decide) (zero_append_eq_setWidth _),
    registerRead_completes (addr := 0x4) s (by decide) (zero_append_eq_setWidth _),
    registerRead_completes (addr := 0x5) s (by decide) (zero_append_eq_setWidth _),
    registerRead_completes (addr := 0x6) s (by decide) (zero_append_eq_setWidth _),
    registerRead_completes (addr := 0x7) s (by decide) rfl,
    registerRead_completes (addr := 0x8) s (by decide) (zero_append_eq_setWidth _),
    registerRead_completes (addr := 0x9) s (by decide) (zero_append_eq_setWidth _),
    ⟨_, rfl, onlyReadData_driveReadData _ s, toNat_matrixWidthWord s⟩,
    ⟨_, rfl, onlyReadData_driveReadData _ s, toNat_matrixHeightWord s⟩,
    registerRead_completes (addr := 0xC) s (by decide) (zero_append_eq_setWidth _), ?_⟩
  · rw [decode_csrWord]
    simpa using decodeCsr_of_mem_registerReads d hMem
  · rintro i (rfl | rfl | rfl)
    · exact registerRead_completes (addr := 0xD) s (by decide) rfl
    · exact registerRead_completes (addr := 0xE) s (by decide) rfl
    · exact registerRead_completes (addr := 0xF) s (by decide) rfl

/-! ## The register writes that store (R223 to R241) -/

theorem mapModeBits_mapModeOfBits (b : BitVec 2) : mapModeBits (mapModeOfBits b) = b := by
  have h : ∀ b : BitVec 2, mapModeBits (mapModeOfBits b) = b := by decide
  exact h b

theorem mergeEvent_raise_none (e clr : BitVec 5) : mergeEvent e clr 0 = e &&& ~~~clr := BitVec.or_zero

/-- Settles O52: each write gives its register the low bits of the data, which `MAX_PAYLOAD` clamps below a capacity that fits
the register (`toNat_ofNat_of_le_cap`). -/
theorem registerWritesComplete : Obligations.RegisterWritesComplete := by
  intro s d
  have hLow {k : Nat} (h : k ≤ 16) : d.extractLsb' 0 k = d.setWidth k := (BitVec.setWidth_eq_extractLsb' h).symm
  rw [hLow (k := 5) (by decide), hLow (k := 6) (by decide), hLow (k := 2) (by decide), hLow (k := 8) (by decide)]
  exact ⟨⟨_, rfl, onlyConfig_writeConfig _ s⟩,
    ⟨_, rfl, onlyConfig_writeConfig _ s, fun hParams => toNat_ofNat_of_le_cap hParams (Nat.min_le_right _ _)⟩,
    ⟨_, rfl, rxbufKept_refl s, by rw [mergeEvent_raise_none]; rfl⟩,
    ⟨_, rfl, onlyConfig_writeConfig _ s⟩,
    ⟨_, rfl, onlyConfig_writeConfig _ s, mapModeBits_mapModeOfBits _⟩,
    ⟨_, rfl, onlyConfig_writeConfig _ s⟩,
    ⟨_, rfl, onlyConfig_writeConfig _ s⟩,
    ⟨_, rfl, onlyConfig_writeConfig _ s⟩⟩

/-! ## The accesses that do nothing (R227 to R250) -/

/-- The register writes that are ignored, each with its address (R103). -/
def ignoredWrites (d : Half) : List (Instr × BitVec 4) :=
  [(.csrWrChkerrCnt d, 0x2), (.csrWrStatus d, 0x5), (.csrWrMatrixWidth d, 0xA), (.csrWrMatrixHeight d, 0xB),
    (.csrWrLastDrop d, 0xC), (.csrWrRsvdD d, 0xD), (.csrWrRsvdE d, 0xE), (.csrWrRsvdF d, 0xF)]

theorem decodeCsr_of_mem_ignoredWrites {i : Instr} {addr : BitVec 4} {d : Half} (h : (i, addr) ∈ ignoredWrites d) :
    decodeCsr (16 + addr.toNat) d = i := by
  have hAll : ∀ r ∈ ignoredWrites d, decodeCsr (16 + r.2.toNat) d = r.1 := by simp [ignoredWrites, decodeCsr]
  exact hAll _ h

theorem exec_of_mem_ignoredWrites {i : Instr} {addr : BitVec 4} {d : Half} (s : State) (h : (i, addr) ∈ ignoredWrites d) :
    exec i s = .next (ignoreWrite s) := by
  have hAll : ∀ r ∈ ignoredWrites d, exec r.1 s = .next (ignoreWrite s) := by
    simp only [ignoredWrites, List.forall_mem_cons]
    exact ⟨rfl, rfl, rfl, rfl, rfl, rfl, rfl, rfl, nofun⟩
  exact hAll _ h

/-- Settles O53: an ignored write is `ignoreWrite`, which drives 0 on `csr_rdata` as the cycle without an access does. -/
theorem ignoredWritesComplete : Obligations.IgnoredWritesComplete := by
  refine fun s d => ⟨fun i addr hMem => ⟨?_, _, exec_of_mem_ignoredWrites s hMem, onlyReadData_driveReadData 0 s⟩,
    _, rfl, onlyReadData_driveReadData 0 s⟩
  rw [decode_csrWord]
  simpa using decodeCsr_of_mem_ignoredWrites hMem

end Sys2Proof.Machine
end

section
/-! PROOFS of the statements of spec/60_exceptions.md and of what a cycle overrides: no cycle stops (R261), the interrupt
(R266), the merge of `EVENT` (R265), the receive causes (R262, R264, R268), and the order of one cycle's effects (R267): reset
over all else, a register write after all else. -/

namespace Sys2Proof.Machine

/-! ## No cycle stops (R261) -/

/-- The address of a payload byte exists, because `rx_idx` stays below a length that was checked (R123, R131). -/
theorem payload_address_exists {s : State} {i : Inputs} (h : RxInv s) (hTakes : takesPayload s i = true) :
    s.rx.idx.toNat < s.cfg.rxbufCap := by
  obtain ⟨-, hState⟩ := (takesPayload_iff s i).mp hTakes
  have hInside := h.idxInside hState
  have hLen := h.lenChecked (by rw [hState]; rfl)
  omega

/-- Settles O9: the one fault of a cycle is a payload byte without an address, which the invariant excludes. -/
theorem noTrapInReachableStates : Obligations.NoTrapInReachableStates := fun s hInv hDuty =>
  ⟨_, stepIsTheLockstepCycle s hDuty fun _ hTakes => payload_address_exists hInv.rx hTakes⟩

/-! ## The interrupt (R266) -/

theorem ne_zero_iff_exists_bit {n : Nat} (x : BitVec n) : x ≠ 0 ↔ ∃ k, k < n ∧ x.getLsbD k = true := by
  rw [ne_eq, BitVec.eq_of_getLsbD_eq_iff]
  simp

/-- An `EVENT` bit is enabled exactly when it and the same bit of `IRQ_EN` are 1. -/
theorem enabled_event_iff (e : BitVec 5) (en : BitVec 6) :
    e &&& en.setWidth 5 ≠ 0 ↔ ∃ k, k < 5 ∧ e.getLsbD k = true ∧ en.getLsbD k = true := by
  rw [ne_zero_iff_exists_bit]
  refine exists_congr fun k => and_congr_right fun hk => ?_
  simp [hk]

theorem irqLevel_iff (s : State) :
    irqLevel s = true ↔ (∃ k, k < 5 ∧ s.event.getLsbD k = true ∧ s.csr.irqEn.getLsbD k = true) ∨
      (s.rx.pending = true ∧ s.csr.irqEn.getLsbD 5 = true) := by
  rw [irqLevel, Bool.or_eq_true, Bool.and_eq_true, decide_eq_true_eq, enabled_event_iff]

/-- Settles O11: outside reset the port shows `irqLevel` of the pre-state (`step_out`). -/
theorem irqIsTheEnabledSources : Obligations.IrqIsTheEnabledSources := by
  intro s t h
  rw [step_out h, ← irqLevel_iff]
  simp [outputs]

/-! ## The merge of `EVENT` (R265) -/

/-- Settles O12: the lockstep cycle merges `EVENT` once, with the bits of `eventClear` cleared before those of `eventSet`
are set. -/
theorem eventMergeSetWinsOverClear : Obligations.EventMergeSetWinsOverClear := by
  intro s t h hRst
  obtain ⟨rfl, -⟩ := step_next_lockstep h
  rw [lockstep_of_not_rst hRst, ← BitVec.setWidth_eq_extractLsb' (by decide), ← eventClear_eq]
  rfl

/-! ## The receive causes (R262, R264, R268) -/

section Causes

variable {s : State} {i : Inputs}

theorem checksumFails_iff : checksumFails s i = true ↔
    fireRx s i = true ∧ s.rx.state = .readChecksum ∧ i.rxData ≠ s.rx.acc := by
  simp [checksumFails, and_assoc]

theorem oversize_iff : oversize s i = true ↔
    fireRx s i = true ∧ s.rx.state = .readLengthHigh ∧ exceedsMax s (declaredLength s i.rxData) = true := by
  simp [oversize, and_assoc]

/-- A byte accepted in the cycle has priority over the tick (R112). -/
theorem timesOut_of_fireRx (h : fireRx s i = true) : timesOut s i = false := by simp [timesOut, h]

theorem oversize_of_checksumFails (h : checksumFails s i = true) : oversize s i = false := by
  obtain ⟨-, hState, -⟩ := checksumFails_iff.mp h
  simp [oversize, hState]

/-- Each of the three causes resynchronises the framer (R268). -/
theorem rxAfter_waits_of_cause (h : checksumFails s i = true ∨ oversize s i = true ∨ timesOut s i = true) :
    (rxAfter s i).state = .waitStart := by
  rcases h with hChk | hOvs | hTmo
  · obtain ⟨hFire, hState, hBad⟩ := checksumFails_iff.mp hChk
    rw [rxAfter_readChecksum hFire hState, if_neg hBad]
  · obtain ⟨hFire, hState, hMax⟩ := oversize_iff.mp hOvs
    rw [rxAfter_readLengthHigh hFire hState, if_pos hMax]
  · cases hFire : fireRx s i with
    | true => simp [timesOut_of_fireRx hFire] at hTmo
    | false => rw [rxAfter_of_no_byte hFire, hTmo]; rfl

end Causes

/-- Settles O13: the first two causes need an accepted byte in different states, the third a cycle without one. -/
theorem receiveDropsAreRecorded : Obligations.ReceiveDropsAreRecorded := by
  intro s t i hi h hRst
  subst hi
  obtain ⟨rfl, -⟩ := step_next_lockstep h
  rw [lockstep_of_not_rst hRst]
  refine ⟨rfl, rfl, fun hChk => ⟨oversize_of_checksumFails hChk, ?_⟩, fun hOvs => ?_, rxAfter_waits_of_cause⟩
  · exact timesOut_of_fireRx (checksumFails_iff.mp hChk).1
  · exact timesOut_of_fireRx (oversize_iff.mp hOvs).1

/-! ## A register write (R221, R267, R285) -/

/-- A cycle under given inputs is the step of the state that has them next. -/
theorem cycle_eq_step (s : State) (i : Inputs) : cycle s i = step { s with env := i :: s.env.tail } := rfl

theorem cycle_next_lockstep {s t : State} {i : Inputs} (h : cycle s i = .next t) : t = lockstep s i := by
  rw [cycle_eq_step] at h
  exact (step_next_lockstep h).1

/-- The cycle without its register access. -/
def Inputs.withoutCsr (i : Inputs) : Inputs := { i with csrValid := false }

section Write

variable {s : State} {i : Inputs}

/-- A write drives 0 on `csr_rdata`, as no access does (R221, R250). -/
theorem outputs_withoutCsr (hWe : i.csrWe = true) : outputs s i.withoutCsr = outputs s i := by
  have hRead : (outputs s i.withoutCsr).csrRdata = (outputs s i).csrRdata := by
    rw [csrRdata_of_no_read (by simp [Inputs.withoutCsr]), csrRdata_of_no_read (by simp [hWe])]
  calc outputs s i.withoutCsr = { outputs s i with csrRdata := (outputs s i.withoutCsr).csrRdata } := rfl
    _ = outputs s i := by rw [hRead]

theorem csrAfter_withoutCsr : csrAfter s i.withoutCsr = s.csr :=
  csrAfter_of_no_write (by simp [writesConfig, Inputs.withoutCsr])

/-- A write acts on the configuration registers and on `EVENT`, and on nothing else (R285). -/
theorem ordinaryAfter_of_write (hWe : i.csrWe = true) :
    ordinaryAfter s i =
      ((ordinaryAfter s i.withoutCsr).setCsr (csrAfter s i)).setEvent
        (mergeEvent s.event (eventClear i) (eventSet s i)) := by
  rw [ordinaryAfter, ordinaryAfter, outputs_withoutCsr hWe]
  rfl

theorem resetAfter_of_write (hWe : i.csrWe = true) : resetAfter s i = resetAfter s i.withoutCsr := by
  rw [resetAfter, resetAfter, outputs_withoutCsr hWe]
  rfl

/-- A write to any address but that of `EVENT` acts on the configuration registers only. -/
theorem ordinaryAfter_of_configWrite (hWe : i.csrWe = true) (hAddr : i.csrAddr ≠ 3) :
    ordinaryAfter s i = (ordinaryAfter s i.withoutCsr).setCsr (csrAfter s i) := by
  have hClear : eventClear i = eventClear i.withoutCsr := by
    rw [eventClear_eq, if_neg fun ⟨_, _, hEvent⟩ => hAddr hEvent]
    rfl
  rw [ordinaryAfter_of_write hWe, hClear]
  rfl

/-- A write to the address of `EVENT` acts on `EVENT` only (R229, R265). -/
theorem ordinaryAfter_of_eventWrite (hValid : i.csrValid = true) (hWe : i.csrWe = true) (hAddr : i.csrAddr = 3) :
    ordinaryAfter s i =
      (ordinaryAfter s i.withoutCsr).setEvent (mergeEvent s.event (i.csrWdata.setWidth 5) (eventSet s i)) := by
  have hKept : csrAfter s i = csrAfter s i.withoutCsr := by
    rw [csrAfter_withoutCsr]
    exact csrAfter_of_no_write (by simp [writesConfig, hAddr])
  rw [ordinaryAfter_of_write hWe, hKept, eventClear_eq, if_pos ⟨hValid, hWe, hAddr⟩]
  rfl

theorem writesTo_of_write (hValid : i.csrValid = true) (hWe : i.csrWe = true) (a : BitVec 4) :
    writesTo i a = decide (i.csrAddr = a) := by
  simp [writesTo, hValid, hWe]

theorem writesTo_of_other {a : BitVec 4} (h : i.csrAddr ≠ a) : writesTo i a = false := by simp [writesTo, h]

end Write

/-- Settles O17: with the write or without it the lockstep cycle computes the same but for the configuration registers or
`EVENT`, of which the write changes the one its address names (`ordinaryAfter_of_configWrite`, `ordinaryAfter_of_eventWrite`). -/
theorem registerWriteIsSeenNextCycle : Obligations.RegisterWriteIsSeenNextCycle := by
  intro s t u i hValid hWe ht hu
  obtain rfl := cycle_next_lockstep ht
  obtain rfl : u = lockstep s i.withoutCsr := cycle_next_lockstep hu
  refine ⟨fun hRst => ?_, fun hRst => ?_⟩
  · rw [lockstep_of_rst hRst, lockstep_of_rst (i := i.withoutCsr) hRst, resetAfter_of_write hWe]
  · rw [lockstep_of_not_rst hRst, lockstep_of_not_rst (i := i.withoutCsr) hRst]
    have hLow {k : Nat} (h : k ≤ 16) : i.csrWdata.extractLsb' 0 k = i.csrWdata.setWidth k :=
      (BitVec.setWidth_eq_extractLsb' h).symm
    rw [hLow (k := 5) (by decide), hLow (k := 6) (by decide), hLow (k := 2) (by decide), hLow (k := 8) (by decide)]
    have hKept : (ordinaryAfter s i.withoutCsr).csr = s.csr := csrAfter_withoutCsr
    split
    case h_3 hAddr =>
      rw [ordinaryAfter_of_eventWrite hValid hWe hAddr]
      rfl
    case h_9 hCtrl hMax hEvent hIrq hMode hWidth hCount hBright =>
      have hIgnored : csrAfter s i = s.csr := by
        simp [csrAfter, writesTo_of_other hCtrl, writesTo_of_other hMax, writesTo_of_other hIrq,
          writesTo_of_other hMode, writesTo_of_other hWidth, writesTo_of_other hCount, writesTo_of_other hBright]
      rw [ordinaryAfter_of_configWrite hWe hEvent, hIgnored, ← hKept]
      rfl
    all_goals
      rename_i hAddr
      rw [ordinaryAfter_of_configWrite hWe (by simp [hAddr])]
      refine congrArg (ordinaryAfter s i.withoutCsr).setCsr ?_
      rw [hKept]
      simp [csrAfter, writesTo_of_write hValid hWe, hAddr]

/-! ## Reset over all else (R267, R281, R282) -/

/-- What a cycle with `rst = 1` drives low (R281). -/
theorem outputs_low_of_rst {s : State} {i : Inputs} (h : i.rst = true) :
    (outputs s i).rxReady = false ∧ (outputs s i).txReqReady = false ∧ (outputs s i).txPlReady = false ∧
      (outputs s i).mapReqReady = false ∧ (outputs s i).txValid = false ∧ (outputs s i).irq = false ∧
      (outputs s i).csrRdata = 0 := by
  simp [outputs, h]

/-- Settles O21: a cycle with `rst = 1` runs to `resetAfter`, whatever the other inputs are. -/
theorem resetCycleOverridesEverything : Obligations.ResetCycleOverridesEverything := by
  intro s hDuty hRst
  refine ⟨_, stepIsTheLockstepCycle s hDuty fun hNoRst => absurd (hRst.symm.trans hNoRst) nofun, ?_⟩
  rw [lockstep_of_rst hRst]
  obtain ⟨hRx, hTxReq, hTxPl, hMapReq, hTx, hIrq, hRdata⟩ := outputs_low_of_rst (s := s) hRst
  exact ⟨rfl, rfl, rfl, rfl, rfl, rfl, fun _ => rfl, hRx, hTxReq, hTxPl, hMapReq, hTx, hIrq, hRdata, rfl, rfl, rfl⟩

end Sys2Proof.Machine
end

section
/-! PROOFS of the statements of spec/70_reset_and_hazards.md: the reset operation (R281, R282), and the invariant after one
reset cycle (R281, R283). -/

namespace Sys2Proof.Machine

/-! ## The reset operation (R281, R282) -/

theorem exec_reset_eq (s : State) : exec .reset s = .next (resetBlock s) := rfl

theorem rxbufKept_resetBlock (s : State) : RxbufKept s (resetBlock s) := rxbufKept_refl s

/-- Settles O54: the operation runs to `resetBlock`, whose units stand at the values of R65 (`resetBlock_rx` to
`resetBlock_event`) beside the fields it keeps. -/
theorem resetCompletes : Obligations.ResetCompletes := fun s =>
  ⟨resetBlock s, exec_reset_eq s, resetBlock_rx s, resetBlock_tx s, resetBlock_map s, resetBlock_csr s,
    resetBlock_event s, rxbufKept_resetBlock s, resetBlock_cfg s, resetBlock_env s, resetBlock_held s⟩

/-! ## A reset cycle (R281, R283) -/

/-- A cycle with `rst = 1` takes no payload byte, so it needs no address for one: it always runs to `resetAfter`. -/
theorem step_of_rst {s : State} (hDuty : dutyBroken s (currentInputs s) = none) (hRst : (currentInputs s).rst = true) :
    step s = .next (resetAfter s (currentInputs s)) := by
  have hNoPayload : (currentInputs s).rst = false → takesPayload s (currentInputs s) = true →
      s.rx.idx.toNat < s.cfg.rxbufCap := fun hNoRst => absurd (hRst.symm.trans hNoRst) nofun
  calc step s = .next (lockstep s (currentInputs s)) := stepIsTheLockstepCycle s hDuty hNoPayload
    _ = .next (resetAfter s (currentInputs s)) := by rw [lockstep_of_rst hRst]

/-- Settles O22: every register the invariant speaks of is at its reset value, and what the cycle keeps, the parameters and
`RXBUF`, is well formed by hypothesis (`inv_resetAfter`). -/
theorem resetCycleEstablishesTheInvariant : Obligations.ResetCycleEstablishesTheInvariant :=
  fun s hParams hBuf hDuty hRst =>
    ⟨resetAfter s (currentInputs s), step_of_rst hDuty hRst, inv_resetAfter (currentInputs s) hParams hBuf⟩

end Sys2Proof.Machine
end

section
/-! PROOF of the statement about a payload byte with no address in `RXBUF` (log 10; R71, R123): the counterpart of
`rxPayloadBytesComplete`, which has the indices that exist. -/

namespace Sys2Proof.Machine

theorem exec_rxPayload_eq (b : Byte) (s : State) : exec (.rxPayload b) s = storePayload b s.rx.state s := rfl

theorem exec_rxPayloadLast_eq (b : Byte) (s : State) :
    exec (.rxPayloadLast b) s = storePayload b .readChecksum s := rfl

/-- Settles O30: both rows store through `storePayload`, which faults out of range whatever the row's next state. -/
theorem rxPayloadOutsideRxbufFaults : Obligations.RxPayloadOutsideRxbufFaults := by
  intro s b hBeyond
  have hFaults (next : RxState) : storePayload b next s = .fault .rxbufOutOfRange :=
    storePayload_outOfRange b next s (Nat.not_lt.mpr hBeyond)
  exact ⟨(exec_rxPayload_eq b s).trans (hFaults s.rx.state),
    (exec_rxPayloadLast_eq b s).trans (hFaults .readChecksum)⟩

end Sys2Proof.Machine
end
